-- ==== Sys2Proof/Word.lean ====
section
/-! DEFINITION. The value types of 00_scope.md rules R8 and R9: Byte, Word, the four-lane `Quad` from which
columns, blocks and register files are built, and the eleven-block round-key file. The byte ORDER of a word is not fixed
here but in Machine/Lanes.lean, where a repair can reach it. -/

namespace Sys2Proof

/-- An 8-bit unsigned value (R9). -/
abbrev Byte := BitVec 8

/-- A 32-bit unsigned value (R9). -/
abbrev Word := BitVec 32

/-- A byte offset within the 256-byte register window (R7, R70; `paddr` of R71 is 8 bits wide). -/
abbrev Offset := BitVec 8

/-- Four like things in index order 0 to 3. -/
structure Quad (α : Type) where
  a0 : α
  a1 : α
  a2 : α
  a3 : α
  deriving DecidableEq, Repr

namespace Quad

/-- Element `j`. -/
def get {α : Type} (q : Quad α) (j : Fin 4) : α :=
  match j with
  | 0 => q.a0
  | 1 => q.a1
  | 2 => q.a2
  | 3 => q.a3

/-- The same four with element `j` replaced. -/
def set {α : Type} (q : Quad α) (j : Fin 4) (x : α) : Quad α :=
  match j with
  | 0 => { q with a0 := x }
  | 1 => { q with a1 := x }
  | 2 => { q with a2 := x }
  | 3 => { q with a3 := x }

/-- The four values of a function of the index. -/
def ofFn {α : Type} (f : Fin 4 → α) : Quad α := ⟨f 0, f 1, f 2, f 3⟩

/-- Lane by lane. -/
def map {α β : Type} (f : α → β) (q : Quad α) : Quad β := ⟨f q.a0, f q.a1, f q.a2, f q.a3⟩

/-- Lane by lane, on two. -/
def zipWith {α β γ : Type} (f : α → β → γ) (p : Quad α) (q : Quad β) : Quad γ :=
  ⟨f p.a0 q.a0, f p.a1 q.a1, f p.a2 q.a2, f p.a3 q.a3⟩

/-- One value in all four places. -/
def const {α : Type} (x : α) : Quad α := ⟨x, x, x, x⟩

/-- The four in index order. -/
def toList {α : Type} (q : Quad α) : List α := [q.a0, q.a1, q.a2, q.a3]

end Quad

/-- Four bytes: a column of a state, rows 0 to 3 (R9), and the byte view of a Word (R11). -/
abbrev Column := Quad Byte

/-- A sequence of 16 bytes `b[0..15]` held column by column: byte `b[r + 4c]` is row `r` of column `c` (R9). -/
abbrev Block := Quad Column

namespace Block

/-- `zero128`: sixteen zero bytes. -/
def zero : Block := Quad.const (Quad.const 0#8)

/-- The state entry `s[r][c]` (R9). -/
def entry (b : Block) (r c : Fin 4) : Byte := (b.get c).get r

/-- Byte `b[i]`: row `i mod 4` of column `i div 4` (R9). -/
def byte (b : Block) (i : Fin 16) : Byte :=
  b.entry ⟨i.val % 4, by omega⟩ ⟨i.val / 4, by omega⟩

/-- Lane-wise over the sixteen bytes (R183). -/
def mapBytes (f : Byte → Byte) (b : Block) : Block := b.map (·.map f)

/-- The sixteen bytes in index order. -/
def toBytes (b : Block) : List Byte := b.a0.toList ++ b.a1.toList ++ b.a2.toList ++ b.a3.toList

end Block

/-- A RoundKeySchedule: eleven Blocks `RK[0..10]` (R9, R40). -/
structure Schedule where
  k0 : Block
  k1 : Block
  k2 : Block
  k3 : Block
  k4 : Block
  k5 : Block
  k6 : Block
  k7 : Block
  k8 : Block
  k9 : Block
  k10 : Block
  deriving DecidableEq, Repr

namespace Schedule

/-- Round key `RK[r]`. -/
def get (s : Schedule) (r : Fin 11) : Block :=
  match r with
  | 0 => s.k0
  | 1 => s.k1
  | 2 => s.k2
  | 3 => s.k3
  | 4 => s.k4
  | 5 => s.k5
  | 6 => s.k6
  | 7 => s.k7
  | 8 => s.k8
  | 9 => s.k9
  | 10 => s.k10

/-- Every byte of every round key zero (R40). -/
def zero : Schedule :=
  ⟨Block.zero, Block.zero, Block.zero, Block.zero, Block.zero, Block.zero, Block.zero, Block.zero, Block.zero,
    Block.zero, Block.zero⟩

end Schedule

end Sys2Proof
end

