-- ==== Sys2Proof/Syntax.lean ====
section
/-! DEFINITION. What the outside can say to the core: the thirteen commands of spec/opcode_table.json (30_encoding.md rule
R103), the register names (R109), bus transactions (20_memory.md rule R72) and the events of a host's script. A command has
no operand field (R102), so its constructor has no argument. -/

namespace Sys2Proof

/-- The commands, one constructor per row of the opcode table (R103). -/
inductive Instr where
  | nop
  | expandKey
  | encBlock
  | decBlock
  | msgStartEnc
  | msgStartDec
  | msgNext
  | msgAbort
  | sbox
  | invSbox
  | gfInv
  | gfMul
  | zeroize
  deriving DecidableEq, Repr

/-- The registers of the window by the names of R109. -/
inductive Reg where
  | id
  | ctrl
  | cmd
  | status
  | key (j : Fin 4)
  | din (j : Fin 4)
  | dout (j : Fin 4)
  | blkcnt
  | blkidx
  | gfb
  deriving DecidableEq, Repr

/-- One bus transaction (R72). The offset is raw: whether it names a register is for R73 to say. -/
inductive Txn where
  | read (off : Offset)
  | write (off : Offset) (data : Word) (strb : BitVec 4)
  deriving DecidableEq, Repr

/-- What the outside does in one model step: one transaction (R72), the loop of `WAIT` (R107), nothing, or the assertion of
reset (R340). -/
inductive Event where
  | access (t : Txn)
  /-- One read of STATUS, and the same again in the next step as long as BUSY reads 1. -/
  | pollBusy
  | idle
  | reset
  deriving DecidableEq, Repr

/-- What the core answers to a transaction: read data and `pslverr`, or `pslverr` alone (R71, R74). -/
inductive Response where
  | readData (data : Word) (slverr : Bool)
  | writeDone (slverr : Bool)
  deriving DecidableEq, Repr

/-- The statements of the host-script language: the two real ones (R106) and the pseudo-statements (R107). -/
inductive Stmt where
  | w (off : Offset) (imm : Word)
  | r (off : Offset)
  | cmd (i : Instr)
  | ldkey (k : Block)
  | ldblk (b : Block)
  | rdout
  | wait
  | clear
  | irqon
  | irqoff
  deriving DecidableEq, Repr

end Sys2Proof
end

