-- ==== Sys2Proof/Config.lean ====
section
/-! DEFINITION. What an implementation or a platform fixes and the spec leaves OPEN (00_scope.md rule R7, 93 rows I5 to I7):
constants without a body, so that no proof can see a value of one. -/

namespace Sys2Proof.Config

/-- `LAT` less one: the steps a command stays pending before its completion step becomes due, for the `n`-th command the
core accepts. At least one step always passes (R212), so `LAT = latency n i + 1`. It reads the opcode and the count of
accepted commands, never a key, a block, GFB or the sequencer state (R354); the count lets a command accepted while tables
are still being built take longer (R344). DESIGN CHOICE, assumption log 2. -/
opaque latency : Nat → Instr → Nat

/-- `BASE` divided by 256: the window's base is a multiple of 256 (R7, R82). Open, assumption log 7. -/
opaque basePage : Nat

/-- `IRQ_LINE`: the platform interrupt input that `irq` drives (R310). Open, assumption log 7. -/
opaque irqLine : Nat

/-- `BASE` (R7). -/
def base : Nat := 256 * basePage

end Sys2Proof.Config
end

