-- ==== Sys2Proof/Decode.lean ====
section
/-! DEFINITION. The two decoders, each total: command words (30_encoding.md rules R100 to R104) and window offsets
(10_state.md rule R21, 20_memory.md rule R73), and after them the encoders written from the same tables. -/

namespace Sys2Proof

/-- Why a command word is illegal (R104, R233). Both raise ILLEGAL_CMD. -/
inductive DecodeReject where
  /-- `RES = v[31:4]` is not zero. -/
  | reservedBits
  /-- `OP` is 0xD, 0xE or 0xF. -/
  | reservedOpcode
  deriving DecidableEq, Repr

/-- The opcode map of R103. -/
def decodeOp (op : BitVec 4) : Option Instr :=
  match op.toNat with
  | 0x0 => some .nop
  | 0x1 => some .expandKey
  | 0x2 => some .encBlock
  | 0x3 => some .decBlock
  | 0x4 => some .msgStartEnc
  | 0x5 => some .msgStartDec
  | 0x6 => some .msgNext
  | 0x7 => some .msgAbort
  | 0x8 => some .sbox
  | 0x9 => some .invSbox
  | 0xA => some .gfInv
  | 0xB => some .gfMul
  | 0xC => some .zeroize
  | _ => none

/-- Decoding a written word: `OP = v[3:0]`, `RES = v[31:4]` (R101). -/
def decode (v : Word) : Except DecodeReject Instr :=
  if v.extractLsb' 4 28 ≠ 0#28 then .error .reservedBits
  else
    match decodeOp (v.extractLsb' 0 4) with
    | some i => .ok i
    | none => .error .reservedOpcode

/-- The opcode of each command (R103). -/
def opcode : Instr → BitVec 4
  | .nop => 0x0
  | .expandKey => 0x1
  | .encBlock => 0x2
  | .decBlock => 0x3
  | .msgStartEnc => 0x4
  | .msgStartDec => 0x5
  | .msgNext => 0x6
  | .msgAbort => 0x7
  | .sbox => 0x8
  | .invSbox => 0x9
  | .gfInv => 0xA
  | .gfMul => 0xB
  | .zeroize => 0xC

/-- The command word: RES zero, OP in bits [3:0] (R100). -/
def encode (i : Instr) : Word := 0#28 ++ opcode i

/-- The command the decoder reads from a word numbered as spec/opcode_table.json numbers it. A command is one 32-bit word
(R105), handed over as one number: the command word has no byte order of its own (R76). -/
def decodeTableWord (nbits w : Nat) : Option Instr :=
  if nbits ≤ 32 then
    match decode (BitVec.ofNat 32 (w % 2 ^ nbits)) with
    | .ok i => some i
    | .error _ => none
  else none

/-- Why an offset names no register (R73). Both raise BUS. -/
inductive OffsetReject where
  /-- `off[1:0]` is not zero. -/
  | misaligned
  /-- Aligned, but 0x4C or above. -/
  | unmapped
  deriving DecidableEq, Repr

/-- The register map of R21. -/
def regAt (off : Offset) : Option Reg :=
  match off.toNat with
  | 0x00 => some .id
  | 0x04 => some .ctrl
  | 0x08 => some .cmd
  | 0x0C => some .status
  | 0x10 => some (.key 0)
  | 0x14 => some (.key 1)
  | 0x18 => some (.key 2)
  | 0x1C => some (.key 3)
  | 0x20 => some (.din 0)
  | 0x24 => some (.din 1)
  | 0x28 => some (.din 2)
  | 0x2C => some (.din 3)
  | 0x30 => some (.dout 0)
  | 0x34 => some (.dout 1)
  | 0x38 => some (.dout 2)
  | 0x3C => some (.dout 3)
  | 0x40 => some .blkcnt
  | 0x44 => some .blkidx
  | 0x48 => some .gfb
  | _ => none

/-- The register an offset names: aligned and mapped, or not well formed (R73). -/
def decodeOffset (off : Offset) : Except OffsetReject Reg :=
  if off.extractLsb' 0 2 ≠ 0#2 then .error .misaligned
  else
    match regAt off with
    | some r => .ok r
    | none => .error .unmapped

/-- The offset of each register (R109). -/
def offsetOf : Reg → Offset
  | .id => 0x00
  | .ctrl => 0x04
  | .cmd => 0x08
  | .status => 0x0C
  | .key j => 0x10 + 4 * BitVec.ofNat 8 j.val
  | .din j => 0x20 + 4 * BitVec.ofNat 8 j.val
  | .dout j => 0x30 + 4 * BitVec.ofNat 8 j.val
  | .blkcnt => 0x40
  | .blkidx => 0x44
  | .gfb => 0x48

end Sys2Proof
end

