-- ==== Sys2Proof/WellFormed.lean ====
section
/-! DEFINITION. Well-formedness, written from the spec's own sentences and apart from the decoders: of a command word
(30_encoding.md rule R101), of a transaction (20_memory.md rule R73) and of an instruction. -/

namespace Sys2Proof

/-- A command has no operand field (R102), so every instruction is well formed. -/
def Instr.wellFormed : Instr → Bool
  | .nop => true
  | .expandKey => true
  | .encBlock => true
  | .decBlock => true
  | .msgStartEnc => true
  | .msgStartDec => true
  | .msgNext => true
  | .msgAbort => true
  | .sbox => true
  | .invSbox => true
  | .gfInv => true
  | .gfMul => true
  | .zeroize => true

/-- A word is a legal command exactly when `RES = 0` and `OP ≤ 0xC` (R101). -/
abbrev legalWord (v : Word) : Prop := v.extractLsb' 4 28 = 0#28 ∧ (v.extractLsb' 0 4).toNat ≤ 0xC

/-- `off[1:0] = 0` and `off` is one of the mapped offsets 0x00 to 0x48 (R73). -/
abbrev legalOffset (off : Offset) : Prop := off.toNat % 4 = 0 ∧ off.toNat ≤ 0x48

/-- A transaction is well formed: a legal offset and, for a write, all four byte strobes (R73). -/
abbrev Txn.WellFormed (t : Txn) : Prop :=
  match t with
  | .read off => legalOffset off
  | .write off _ strb => legalOffset off ∧ strb = 0xF#4

end Sys2Proof
end

