-- ==== Sys2Proof/Machine/State.lean ====
section
/-! DEFINITION. The state of the machine (10_state.md rule R20): every element of the spec's tuple, and beside it the four
fields of the model's own that hold the outside world (the script of coming events, the last bus response) and the open
latency (the steps left, the count of accepted commands). Plain data throughout. -/

namespace Sys2Proof.Machine

/-- Why the machine could stop with a fault: nothing. Every well-formed or malformed transaction, legal or illegal word,
completion and reset has an effect in the spec (R74, R101, R233, R300), so no constructor is needed (assumption
log 6). Safe: a type without values excuses nothing. -/
inductive Fault where
  deriving DecidableEq, Repr

/-- Why an instruction could be without a meaning. -/
inductive Refusal where
  /-- Raised by exec's arm for an instruction that has no meaning yet (none is left). Safe: the model stops. -/
  | notModelled (mnemonic : String)
  deriving DecidableEq, Repr

/-- The values of `fsm` (R36). -/
inductive Fsm where
  /-- No round-key schedule is held. -/
  | idle
  /-- A schedule from EXPAND_KEY is held, block mode. -/
  | ready
  /-- An encrypt message is in progress. -/
  | msgEnc
  /-- A decrypt message is in progress. -/
  | msgDec
  deriving DecidableEq, Repr

/-- The errors that can be raised (R302); NONE is never raised and so is no constructor. -/
inductive ErrCode where
  | illegalCmd
  | busy
  | sequence
  | noKey
  | keyLength
  | blockLength
  | msgLength
  | bus
  deriving DecidableEq, Repr

/-- The record `(op, lkey, ldin, lgfb)` of a pending command (R41). -/
structure Pending where
  op : Instr
  lkey : Block
  ldin : Block
  lgfb : Byte
  deriving DecidableEq, Repr

/-- The whole state (R20), and the model's own four fields. -/
structure State where
  /-- `CTRL.IRQ_EN` (R23). -/
  irqEn : Bool
  /-- `STATUS.DONE` (R27). -/
  done : Bool
  /-- `STATUS.ERR` (R28). -/
  err : Bool
  /-- `STATUS.MSG_DONE` (R31). -/
  msgDone : Bool
  /-- `STATUS.DOUT_VALID` (R30). -/
  doutValid : Bool
  /-- `STATUS.ERRCODE` (R28, R302). -/
  errcode : BitVec 4
  /-- `KEY_WR[0..3]`, bit j for KEYj (R32). -/
  keyWr : BitVec 4
  /-- `DIN_WR[0..3]`, bit j for DINj (R32). -/
  dinWr : BitVec 4
  /-- `KEY[0..3]` (R33). -/
  key : Quad Word
  /-- `DIN[0..3]` (R34). -/
  din : Quad Word
  /-- `DOUT[0..3]` (R35). -/
  dout : Quad Word
  /-- `BLKCNT` (R37). -/
  blkcnt : BitVec 16
  /-- `BLKIDX` (R38). -/
  blkidx : BitVec 16
  /-- `GFB` (R39). -/
  gfb : Byte
  /-- `fsm` (R36). -/
  fsm : Fsm
  /-- `RK[0..10]` (R40). -/
  rk : Schedule
  /-- `msg_cnt` (R45). -/
  msgCnt : BitVec 16
  /-- `pend` (R41). -/
  pend : Option Pending
  /-- The model's own: steps the pending command still waits before its completion step is due (assumption log 2). -/
  wait : Nat
  /-- The model's own: how many commands have been accepted, the first argument of `Config.latency` (assumption log 2). -/
  accepts : Nat
  /-- The model's own: what the outside will do, next event first (assumption log 1). -/
  script : List Event
  /-- The model's own: what the core answered to the last transaction (assumption log 3). -/
  resp : Option Response
  deriving DecidableEq, Repr

/-- The state after reset (R49): every element of R20 at the value of its table; the model's own fields empty
(assumption log 4). -/
def State.reset : State where
  irqEn := false
  done := false
  err := false
  msgDone := false
  doutValid := false
  errcode := 0x0#4
  keyWr := 0b0000#4
  dinWr := 0b0000#4
  key := Quad.const 0x00000000#32
  din := Quad.const 0x00000000#32
  dout := Quad.const 0x00000000#32
  blkcnt := 0#16
  blkidx := 0#16
  gfb := 0x00#8
  fsm := .idle
  rk := Schedule.zero
  msgCnt := 0#16
  pend := none
  wait := 0
  accepts := 0
  script := []
  resp := none

end Sys2Proof.Machine
end

