-- ==== Sys2Proof/Machine/Flags.lean ====
section
/-! DEFINITION. Every flag computation: the derived STATUS fields (10_state.md rules R26, R29), the STATUS word (R25), the
error codes (60_exceptions.md rule R302), the write-one-to-clear bits (20_memory.md rule R79), the write masks (R32) and the
`irq` level (R43). -/

namespace Sys2Proof.Machine

/-- The code of an error in `STATUS.ERRCODE` (R302). -/
def ErrCode.code : ErrCode → BitVec 4
  | .illegalCmd => 0x1
  | .busy => 0x2
  | .sequence => 0x3
  | .noKey => 0x4
  | .keyLength => 0x5
  | .blockLength => 0x6
  | .msgLength => 0x7
  | .bus => 0x8

/-- `STATUS.BUSY` (R26). -/
def busy (s : State) : Bool := s.pend.isSome

/-- `STATUS.KEY_VALID` (R29). -/
def keyValid (s : State) : Bool := s.fsm ≠ .idle

/-- `STATUS.MSG_ACTIVE` (R29). -/
def msgActive (s : State) : Bool := s.fsm = .msgEnc || s.fsm = .msgDec

/-- `STATUS.MSG_DIR` (R29). -/
def msgDir (s : State) : Bool := s.fsm = .msgDec

/-- The word STATUS reads as (R25). -/
def statusWord (s : State) : Word :=
  (s.errcode ++ s.dinWr ++ s.keyWr ++ BitVec.ofBool s.msgDone ++ BitVec.ofBool s.doutValid ++ BitVec.ofBool (msgDir s) ++
    BitVec.ofBool (msgActive s) ++ BitVec.ofBool (keyValid s) ++ BitVec.ofBool s.err ++ BitVec.ofBool s.done ++
    BitVec.ofBool (busy s)).setWidth 32

/-- The `irq` output (R43, R309). -/
def irq (s : State) : Bool := s.irqEn && (s.done || s.err)

/-- The level of the platform's interrupt input `n`, as far as this core drives it (R310). -/
def irqInput (n : Nat) (s : State) : Bool := n = Config.irqLine && irq s

/-- A write of `v` to STATUS (R79). -/
def clearStatus (v : Word) (s : State) : State :=
  { s with
    done := if v.getLsbD 1 then false else s.done
    err := if v.getLsbD 2 then false else s.err
    errcode := if v.getLsbD 2 then 0x0#4 else s.errcode
    msgDone := if v.getLsbD 7 then false else s.msgDone }

/-- A write mask with bit `j` set (R32). -/
def markWritten (mask : BitVec 4) (j : Fin 4) : BitVec 4 := mask ||| (0b0001#4 <<< j.val)

/-- Whether all four registers behind a mask have been written (R32, R214). -/
def allWritten (mask : BitVec 4) : Bool := mask = 0b1111#4

end Sys2Proof.Machine
end

