-- ==== Sys2Proof/Machine/Lanes.lean ====
section
/-! DEFINITION. The byte order of words and registers (00_scope.md rule R11, 10_state.md rule R44, 20_memory.md rule R75):
byte 0 of four is the most significant, and register j carries column j of a block. -/

namespace Sys2Proof.Machine

/-- `word(a0, a1, a2, a3)`: `a0` in bits [31:24], `a3` in bits [7:0] (R11). -/
def wordOf (c : Column) : Word := c.a0 ++ c.a1 ++ c.a2 ++ c.a3

/-- `bytes(w)`, the inverse of `wordOf` (R11). -/
def bytesOf (w : Word) : Column :=
  ⟨w.extractLsb' 24 8, w.extractLsb' 16 8, w.extractLsb' 8 8, w.extractLsb' 0 8⟩

/-- `blockOf(W0, W1, W2, W3)` (R44). -/
def blockOf (ws : Quad Word) : Block := ws.map bytesOf

/-- `wordsOf(b)`, the inverse of `blockOf` (R44). -/
def wordsOf (b : Block) : Quad Word := b.map wordOf

end Sys2Proof.Machine
end

