-- ==== Sys2Proof/Machine/Operands.lean ====
section
/-! DEFINITION. The operand forms of the commands: which registers a command reads (43_commands.md rule R211), what is latched
of them (10_state.md rule R41), and the sequencer states that admit it (R213). -/

namespace Sys2Proof.Machine

/-- The commands that expand a key (R211). -/
def needsKey : Instr → Bool
  | .expandKey | .msgStartEnc | .msgStartDec => true
  | .nop | .encBlock | .decBlock | .msgNext | .msgAbort | .sbox | .invSbox | .gfInv | .gfMul | .zeroize => false

/-- The commands that read DIN (R211). -/
def needsDin : Instr → Bool
  | .encBlock | .decBlock | .msgNext | .sbox | .invSbox | .gfInv | .gfMul => true
  | .nop | .expandKey | .msgStartEnc | .msgStartDec | .msgAbort | .zeroize => false

/-- The DOUT-producing commands (R30, R211). -/
def producesDout : Instr → Bool
  | .encBlock | .decBlock | .msgNext | .sbox | .invSbox | .gfInv | .gfMul | .zeroize => true
  | .nop | .expandKey | .msgStartEnc | .msgStartDec | .msgAbort => false

/-- The message starts (R211). -/
def isMsgStart : Instr → Bool
  | .msgStartEnc | .msgStartDec => true
  | .nop | .expandKey | .encBlock | .decBlock | .msgNext | .msgAbort | .sbox | .invSbox | .gfInv | .gfMul | .zeroize => false

/-- Whether a message is in progress. -/
def Fsm.inMessage : Fsm → Bool
  | .idle | .ready => false
  | .msgEnc | .msgDec => true

/-- `stateError(op, fsm)`, or nothing where `fsm ∈ legal(op)`: the table of R213. -/
def stateError : Instr → Fsm → Option ErrCode
  | .nop, _ => none
  | .expandKey, f => if f.inMessage then some .sequence else none
  | .encBlock, f => if f = .idle then some .noKey else if f.inMessage then some .sequence else none
  | .decBlock, f => if f = .idle then some .noKey else if f.inMessage then some .sequence else none
  | .msgStartEnc, f => if f.inMessage then some .sequence else none
  | .msgStartDec, f => if f.inMessage then some .sequence else none
  | .msgNext, f => if f.inMessage then none else some .sequence
  | .msgAbort, _ => none
  | .sbox, f => if f.inMessage then some .sequence else none
  | .invSbox, f => if f.inMessage then some .sequence else none
  | .gfInv, f => if f.inMessage then some .sequence else none
  | .gfMul, f => if f.inMessage then some .sequence else none
  | .zeroize, _ => none

/-- `keyBlock` (R33). -/
def keyBlock (s : State) : Block := blockOf s.key

/-- The block in DIN. -/
def dinBlock (s : State) : Block := blockOf s.din

/-- The record latched at acceptance (R41, R211): an operand the command does not read is zero. -/
def latch (i : Instr) (s : State) : Pending where
  op := i
  lkey := if needsKey i then keyBlock s else Block.zero
  ldin := if needsDin i then dinBlock s else Block.zero
  lgfb := if i = .gfMul then s.gfb else 0x00#8

end Sys2Proof.Machine
end

