-- ==== Sys2Proof/Machine/Gf.lean ====
section
/-! DEFINITION. GF(2^8) arithmetic, the S-box and the inverse S-box (40_gf_arith.md rules R120 to R131), as pure functions:
they are constants of the machine, not state (10_state.md rule R47). Addition is `^^^` (R121). -/

namespace Sys2Proof.Machine

/-- Multiplication by `x`, modulo x^8 + x^4 + x^3 + x + 1 (R122). -/
def xtime (a : Byte) : Byte := (a <<< 1) ^^^ (if a.getLsbD 7 then 0x1B#8 else 0x00#8)

/-- The loop of R123 with `n` iterations left, at bit `i` of `b`. -/
def gmulLoop (b : Byte) (n i : Nat) (p a : Byte) : Byte :=
  match n with
  | 0 => p
  | n + 1 => gmulLoop b n (i + 1) (if b.getLsbD i then p ^^^ a else p) (xtime a)

/-- Carry-less multiplication followed by modular reduction (R123). -/
def gmul (a b : Byte) : Byte := gmulLoop b 8 0 0x00#8 a

/-- The multiplicative inverse as `a^254 = a^2 · a^4 · … · a^128`; it sends 0x00 to 0x00 (R126). -/
def ginv (a : Byte) : Byte :=
  let a2 := gmul a a
  let a4 := gmul a2 a2
  let a8 := gmul a4 a4
  let a16 := gmul a8 a8
  let a32 := gmul a16 a16
  let a64 := gmul a32 a32
  let a128 := gmul a64 a64
  gmul (gmul (gmul (gmul (gmul (gmul a2 a4) a8) a16) a32) a64) a128

/-- The affine transform (R128). -/
def affine (b : Byte) : Byte :=
  b ^^^ b.rotateLeft 1 ^^^ b.rotateLeft 2 ^^^ b.rotateLeft 3 ^^^ b.rotateLeft 4 ^^^ 0x63#8

/-- The inverse affine transform (R130). -/
def invAffine (b : Byte) : Byte := b.rotateLeft 1 ^^^ b.rotateLeft 3 ^^^ b.rotateLeft 6 ^^^ 0x05#8

/-- The forward S-box `S` (R129). -/
def sboxByte (x : Byte) : Byte := affine (ginv x)

/-- The inverse S-box `IS` (R131). -/
def invSboxByte (y : Byte) : Byte := ginv (invAffine y)

end Sys2Proof.Machine
end

