-- ==== Sys2Proof/Machine/KeySchedule.lean ====
section
/-! DEFINITION. Key expansion (41_key_expansion.md rules R150 to R155). A key-schedule word is held in its byte view, as a
`Column` (row 0 the most significant byte), so that `w[4r + j]` is column j of `RK[r]`. -/

namespace Sys2Proof.Machine

/-- `RotWord`: left by one byte (R151). -/
def rotWord (w : Column) : Column := ⟨w.a1, w.a2, w.a3, w.a0⟩

/-- `SubWord`: the S-box on each byte (R152). -/
def subWord (w : Column) : Column := w.map sboxByte

/-- XOR of two words in their byte view. -/
def xorWord (v w : Column) : Column := v.zipWith (· ^^^ ·) w

/-- `rc[j]` for j in 1..10: `rc[1] = 0x01`, `rc[j] = xtime(rc[j-1])` (R153). The value at 0 is never used (assumption
log 11). -/
def rc : Nat → Byte
  | 0 => 0x00#8
  | 1 => 0x01#8
  | n + 2 => xtime (rc (n + 1))

/-- `Rcon[j] = word(rc[j], 0x00, 0x00, 0x00)` (R153). -/
def rcon (j : Nat) : Column := ⟨rc j, 0x00#8, 0x00#8, 0x00#8⟩

/-- `w[i]` from `w[i-4]` and `w[i-1]` (R154). -/
def nextWord (i : Nat) (fourBack previous : Column) : Column :=
  xorWord fourBack
    (if i % 4 = 0 then xorWord (subWord (rotWord previous)) (rcon (i / 4)) else previous)

/-- The next `n` words from index `i` on, given the four before them (R154). -/
def expandFrom (n i : Nat) (last : Quad Column) : List Column :=
  match n with
  | 0 => []
  | n + 1 =>
    let w := nextWord i last.a0 last.a3
    w :: expandFrom n (i + 1) ⟨last.a1, last.a2, last.a3, w⟩

/-- The 44 words `w[0..43]` (R150, R154). -/
def scheduleWords (key : Block) : List Column := key.toList ++ expandFrom 40 4 key

/-- Word `w[i]`, i in 0..43. -/
def scheduleWord (key : Block) (i : Nat) : Column := (scheduleWords key).getD i (Quad.const 0x00#8)

/-- Round key `r`: `blockOf(w[4r], w[4r+1], w[4r+2], w[4r+3])` (R154, R155). -/
def roundKey (key : Block) (r : Nat) : Block :=
  ⟨scheduleWord key (4 * r), scheduleWord key (4 * r + 1), scheduleWord key (4 * r + 2), scheduleWord key (4 * r + 3)⟩

/-- `KeyExpansion(k)` (R154). -/
def keyExpansion (key : Block) : Schedule :=
  ⟨roundKey key 0, roundKey key 1, roundKey key 2, roundKey key 3, roundKey key 4, roundKey key 5, roundKey key 6,
    roundKey key 7, roundKey key 8, roundKey key 9, roundKey key 10⟩

end Sys2Proof.Machine
end

