-- ==== Sys2Proof/Machine/RoundPipeline.lean ====
section
/-! DEFINITION. The round pipeline, forward and inverse (42_block_cipher.md rules R170 to R180), on Blocks viewed as the
state `s[r][c]`. -/

namespace Sys2Proof.Machine

/-- `AddRoundKey(s, K)` (R171). -/
def addRoundKey (s k : Block) : Block := s.zipWith (fun c d => c.zipWith (· ^^^ ·) d) k

/-- `SubBytes(s)` (R172). -/
def subBytes (s : Block) : Block := s.mapBytes sboxByte

/-- `ShiftRows(s)`: `s'[r][c] = s[r][(c + r) mod 4]` (R173); addition in `Fin 4` is modulo 4. -/
def shiftRows (s : Block) : Block := Quad.ofFn fun c => Quad.ofFn fun r => s.entry r (c + r)

/-- One column of `MixColumns` (R174). -/
def mixColumn (s : Column) : Column where
  a0 := gmul 0x02#8 s.a0 ^^^ gmul 0x03#8 s.a1 ^^^ s.a2 ^^^ s.a3
  a1 := s.a0 ^^^ gmul 0x02#8 s.a1 ^^^ gmul 0x03#8 s.a2 ^^^ s.a3
  a2 := s.a0 ^^^ s.a1 ^^^ gmul 0x02#8 s.a2 ^^^ gmul 0x03#8 s.a3
  a3 := gmul 0x03#8 s.a0 ^^^ s.a1 ^^^ s.a2 ^^^ gmul 0x02#8 s.a3

/-- `MixColumns(s)` (R174). -/
def mixColumns (s : Block) : Block := s.map mixColumn

/-- `InvSubBytes(s)` (R175). -/
def invSubBytes (s : Block) : Block := s.mapBytes invSboxByte

/-- `InvShiftRows(s)`: `s'[r][c] = s[r][(c - r) mod 4]` (R176). -/
def invShiftRows (s : Block) : Block := Quad.ofFn fun c => Quad.ofFn fun r => s.entry r (c - r)

/-- One column of `InvMixColumns` (R177). -/
def invMixColumn (s : Column) : Column where
  a0 := gmul 0x0E#8 s.a0 ^^^ gmul 0x0B#8 s.a1 ^^^ gmul 0x0D#8 s.a2 ^^^ gmul 0x09#8 s.a3
  a1 := gmul 0x09#8 s.a0 ^^^ gmul 0x0E#8 s.a1 ^^^ gmul 0x0B#8 s.a2 ^^^ gmul 0x0D#8 s.a3
  a2 := gmul 0x0D#8 s.a0 ^^^ gmul 0x09#8 s.a1 ^^^ gmul 0x0E#8 s.a2 ^^^ gmul 0x0B#8 s.a3
  a3 := gmul 0x0B#8 s.a0 ^^^ gmul 0x0D#8 s.a1 ^^^ gmul 0x09#8 s.a2 ^^^ gmul 0x0E#8 s.a3

/-- `InvMixColumns(s)` (R177). -/
def invMixColumns (s : Block) : Block := s.map invMixColumn

/-- The body of the loop of R178 for one of the rounds 1 to 9. -/
def encRound (s k : Block) : Block := addRoundKey (mixColumns (shiftRows (subBytes s))) k

/-- The last round of R178: no MixColumns (R180). -/
def encFinalRound (s k : Block) : Block := addRoundKey (shiftRows (subBytes s)) k

/-- `Cipher(in, RK)` (R178). -/
def cipher (input : Block) (rk : Schedule) : Block :=
  encFinalRound
    ([rk.k1, rk.k2, rk.k3, rk.k4, rk.k5, rk.k6, rk.k7, rk.k8, rk.k9].foldl encRound (addRoundKey input rk.k0))
    rk.k10

/-- The body of the loop of R179 for one of the rounds 9 down to 1. -/
def decRound (s k : Block) : Block := invMixColumns (addRoundKey (invSubBytes (invShiftRows s)) k)

/-- The last round of R179: no InvMixColumns. -/
def decFinalRound (s k : Block) : Block := addRoundKey (invSubBytes (invShiftRows s)) k

/-- `InvCipher(in, RK)` (R179). -/
def invCipher (input : Block) (rk : Schedule) : Block :=
  decFinalRound
    ([rk.k9, rk.k8, rk.k7, rk.k6, rk.k5, rk.k4, rk.k3, rk.k2, rk.k1].foldl decRound (addRoundKey input rk.k10))
    rk.k0

end Sys2Proof.Machine
end

