-- ==== Sys2Proof/Machine/Ops.lean ====
section
/-! DEFINITION. The shared operations over the state: recording an error (this hardware's whole exception mechanism,
60_exceptions.md rules R300, R301 and R311) and clearing it (R307), the checks and common effects of acceptance (43_commands.md
rules R211, R215), the common effect of completion (R212), storing an output block, zeroizing the schedule, reset
(70_reset_and_hazards.md rule R340). The core has no data memory (R70), so there is no memory operation. -/

namespace Sys2Proof.Machine

/-- `raise Error(code)`: first-error capture, and no other effect (R301). -/
def raiseError (c : ErrCode) (s : State) : State :=
  if s.err then s else { s with err := true, errcode := c.code }

/-- Ends an error record, the only return from an error there is: a STATUS write with bit [2] = 1 (R307, R79). -/
def clearError (s : State) : State := clearStatus 0x00000004#32 s

/-- The first check of R211 after decoding that command `i` fails, if any; the order is the priority of R303. -/
def firstRefusal (i : Instr) (s : State) : Option ErrCode :=
  if busy s then some .busy
  else
    match stateError i s.fsm with
    | some c => some c
    | none =>
      if needsKey i && !allWritten s.keyWr then some .keyLength
      else if needsDin i && !allWritten s.dinWr then some .blockLength
      else if isMsgStart i && s.blkcnt == 0#16 then some .msgLength
      else none

/-- The common effects of an acceptance (R211): the command is latched as pending, DONE is cleared, a consumed DIN is
unmarked, DOUT_VALID falls for a DOUT-producing command. With them the model draws the command's latency. -/
def acceptCommon (i : Instr) (s : State) : State :=
  { s with
    pend := some (latch i s)
    done := false
    dinWr := if needsDin i then 0b0000#4 else s.dinWr
    doutValid := if producesDout i then false else s.doutValid
    wait := Config.latency s.accepts i
    accepts := s.accepts + 1 }

/-- `accept(v)` for a legal word (R210, R211): refused with nothing but the error record (R215), or accepted with the common
effects and then the command's own acceptance effects. -/
def accept (i : Instr) (own : State → State) (s : State) : Host.Outcome State Fault Refusal :=
  match firstRefusal i s with
  | some c => .next (raiseError c s)
  | none => .next (own (acceptCommon i s))

/-- What every completion does: BUSY falls, DONE rises (R212). -/
def finish (s : State) : State := { s with pend := none, done := true, wait := 0 }

/-- `DOUT[j] <- wordsOf(out)[j]; DOUT_VALID <- 1` (R222). -/
def storeDout (out : Block) (s : State) : State := { s with dout := wordsOf out, doutValid := true }

/-- `RK <- KeyExpansion(k)` and the sequencer state that holds it (R221, R224). -/
def loadSchedule (k : Block) (f : Fsm) (s : State) : State := { s with rk := keyExpansion k, fsm := f }

/-- The end of a schedule's life: `RK[r] <- zero128` for every r, `fsm <- IDLE` (R226, R227, R232, R240). -/
def dropSchedule (s : State) : State := { s with rk := Schedule.zero, fsm := .idle }

/-- Reset sets every element of R20 to the value of R49 (R340). The coming events are the outside's, not the core's, and the
count of acceptances goes on, so that no latency is drawn twice. -/
def resetCore (s : State) : State := { State.reset with script := s.script, accepts := s.accepts }

end Sys2Proof.Machine
end

