-- ==== Sys2Proof/Machine/BlockMode.lean ====
section
/-! DEFINITION. The block-mode commands EXPAND_KEY, ENC_BLOCK and DEC_BLOCK (43_commands.md rules R221 to R223). -/

namespace Sys2Proof.Machine

/-- EXPAND_KEY, acceptance: only the common effects; KEY and KEY_WR stay (R221). -/
def acceptExpandKey (s : State) : State := s

/-- EXPAND_KEY, completion (R221). -/
def completeExpandKey (p : Pending) (s : State) : State := loadSchedule p.lkey .ready s

/-- EXPAND_KEY (R221). -/
def execExpandKey (s : State) : Host.Outcome State Fault Refusal := accept .expandKey acceptExpandKey s

/-- ENC_BLOCK, acceptance: only the common effects (R222). -/
def acceptEncBlock (s : State) : State := s

/-- ENC_BLOCK, completion (R222). -/
def completeEncBlock (p : Pending) (s : State) : State := storeDout (cipher p.ldin s.rk) s

/-- ENC_BLOCK (R222). -/
def execEncBlock (s : State) : Host.Outcome State Fault Refusal := accept .encBlock acceptEncBlock s

/-- DEC_BLOCK, acceptance: only the common effects (R223). -/
def acceptDecBlock (s : State) : State := s

/-- DEC_BLOCK, completion (R223). -/
def completeDecBlock (p : Pending) (s : State) : State := storeDout (invCipher p.ldin s.rk) s

/-- DEC_BLOCK (R223). -/
def execDecBlock (s : State) : Host.Outcome State Fault Refusal := accept .decBlock acceptDecBlock s

end Sys2Proof.Machine
end

