-- ==== Sys2Proof/Machine/Control.lean ====
section
/-! DEFINITION. The housekeeping commands NOP, MSG_ABORT and ZEROIZE (43_commands.md rules R220, R227, R232): what their
acceptance does beyond the common effects, and what their completion does before the common finish. -/

namespace Sys2Proof.Machine

/-- NOP, acceptance: only the common effects (R220). -/
def acceptNop (s : State) : State := s

/-- NOP, completion: no effect beyond R212 (R220). -/
def completeNop (_ : Pending) (s : State) : State := s

/-- NOP (R220). -/
def execNop (s : State) : Host.Outcome State Fault Refusal := accept .nop acceptNop s

/-- MSG_ABORT, acceptance: only the common effects (R227). -/
def acceptMsgAbort (s : State) : State := s

/-- MSG_ABORT, completion: in a message the schedule is dropped, elsewhere nothing happens (R227). -/
def completeMsgAbort (_ : Pending) (s : State) : State := if s.fsm.inMessage then dropSchedule s else s

/-- MSG_ABORT (R227). -/
def execMsgAbort (s : State) : Host.Outcome State Fault Refusal := accept .msgAbort acceptMsgAbort s

/-- ZEROIZE, acceptance: the registers the host writes are cleared (R232). -/
def acceptZeroize (s : State) : State :=
  { s with
    key := Quad.const 0x00000000#32
    din := Quad.const 0x00000000#32
    keyWr := 0b0000#4
    dinWr := 0b0000#4
    doutValid := false
    blkcnt := 0#16
    gfb := 0x00#8 }

/-- ZEROIZE, completion: the registers the core writes are cleared (R232). -/
def completeZeroize (_ : Pending) (s : State) : State :=
  dropSchedule
    { s with
      dout := Quad.const 0x00000000#32
      blkidx := 0#16
      msgCnt := 0#16
      msgDone := false }

/-- ZEROIZE (R232). -/
def execZeroize (s : State) : Host.Outcome State Fault Refusal := accept .zeroize acceptZeroize s

end Sys2Proof.Machine
end

