-- ==== Sys2Proof/Machine/GfCommands.lean ====
section
/-! DEFINITION. The building-block commands SBOX, INV_SBOX, GF_INV and GF_MUL (43_commands.md rules R228 to R231). -/

namespace Sys2Proof.Machine

/-- SBOX, acceptance: only the common effects (R228). -/
def acceptSbox (s : State) : State := s

/-- SBOX, completion: `out[i] = S(ldin[i])` (R228). -/
def completeSbox (p : Pending) (s : State) : State := storeDout (p.ldin.mapBytes sboxByte) s

/-- SBOX (R228). -/
def execSbox (s : State) : Host.Outcome State Fault Refusal := accept .sbox acceptSbox s

/-- INV_SBOX, acceptance: only the common effects (R229). -/
def acceptInvSbox (s : State) : State := s

/-- INV_SBOX, completion: `out[i] = IS(ldin[i])` (R229). -/
def completeInvSbox (p : Pending) (s : State) : State := storeDout (p.ldin.mapBytes invSboxByte) s

/-- INV_SBOX (R229). -/
def execInvSbox (s : State) : Host.Outcome State Fault Refusal := accept .invSbox acceptInvSbox s

/-- GF_INV, acceptance: only the common effects (R230). -/
def acceptGfInv (s : State) : State := s

/-- GF_INV, completion: `out[i] = ginv(ldin[i])` (R230). -/
def completeGfInv (p : Pending) (s : State) : State := storeDout (p.ldin.mapBytes ginv) s

/-- GF_INV (R230). -/
def execGfInv (s : State) : Host.Outcome State Fault Refusal := accept .gfInv acceptGfInv s

/-- GF_MUL, acceptance: only the common effects, which latch GFB (R231). -/
def acceptGfMul (s : State) : State := s

/-- GF_MUL, completion: `out[i] = gmul(ldin[i], lgfb)` (R231). -/
def completeGfMul (p : Pending) (s : State) : State := storeDout (p.ldin.mapBytes fun x => gmul x p.lgfb) s

/-- GF_MUL (R231). -/
def execGfMul (s : State) : Host.Outcome State Fault Refusal := accept .gfMul acceptGfMul s

end Sys2Proof.Machine
end

