-- ==== Sys2Proof/Machine/Message.lean ====
section
/-! DEFINITION. The message commands MSG_START_ENC, MSG_START_DEC and MSG_NEXT (43_commands.md rules R224 to R226). -/

namespace Sys2Proof.Machine

/-- What both message starts do at acceptance: latch the block count, consume the key (R224). -/
def takeMessage (s : State) : State :=
  { s with msgCnt := s.blkcnt, key := Quad.const 0x00000000#32, keyWr := 0b0000#4 }

/-- What both message starts do at completion, in direction `f` (R224, R225). -/
def openMessage (f : Fsm) (p : Pending) (s : State) : State :=
  loadSchedule p.lkey f { s with blkidx := 0#16, msgDone := false }

/-- MSG_START_ENC, acceptance (R224). -/
def acceptMsgStartEnc (s : State) : State := takeMessage s

/-- MSG_START_ENC, completion (R224). -/
def completeMsgStartEnc (p : Pending) (s : State) : State := openMessage .msgEnc p s

/-- MSG_START_ENC (R224). -/
def execMsgStartEnc (s : State) : Host.Outcome State Fault Refusal := accept .msgStartEnc acceptMsgStartEnc s

/-- MSG_START_DEC, acceptance (R225). -/
def acceptMsgStartDec (s : State) : State := takeMessage s

/-- MSG_START_DEC, completion (R225). -/
def completeMsgStartDec (p : Pending) (s : State) : State := openMessage .msgDec p s

/-- MSG_START_DEC (R225). -/
def execMsgStartDec (s : State) : Host.Outcome State Fault Refusal := accept .msgStartDec acceptMsgStartDec s

/-- The end of a message at its last block: the schedule is dropped, MSG_DONE rises (R226). -/
def endMessage (s : State) : State := { dropSchedule s with msgDone := true }

/-- The output block of MSG_NEXT, with the schedule as it is before the completion (R226). -/
def msgNextOutput (p : Pending) (s : State) : Block :=
  if s.fsm = .msgEnc then cipher p.ldin s.rk else invCipher p.ldin s.rk

/-- MSG_NEXT, acceptance: only the common effects (R226). -/
def acceptMsgNext (s : State) : State := s

/-- MSG_NEXT, completion: the block, the count, and at the last block the end of the message (R226). -/
def completeMsgNext (p : Pending) (s : State) : State :=
  let t := storeDout (msgNextOutput p s) { s with blkidx := s.blkidx + 1#16 }
  if t.blkidx = t.msgCnt then endMessage t else t

/-- MSG_NEXT (R226). -/
def execMsgNext (s : State) : Host.Outcome State Fault Refusal := accept .msgNext acceptMsgNext s

end Sys2Proof.Machine
end

