-- ==== Sys2Proof/Machine/Dispatch.lean ====
section
/-! DEFINITION. What a legal command word written to CMD does in the host's step (43_commands.md rule R210): one arm per
command, each one call of its meaning. The results appear in a later step, Machine/Completion.lean. -/

namespace Sys2Proof.Machine

def exec (i : Instr) (s : State) : Host.Outcome State Fault Refusal :=
  match i with
  | .nop => Sys2Proof.Machine.execNop s
  | .expandKey => Sys2Proof.Machine.execExpandKey s
  | .encBlock => Sys2Proof.Machine.execEncBlock s
  | .decBlock => Sys2Proof.Machine.execDecBlock s
  | .msgStartEnc => Sys2Proof.Machine.execMsgStartEnc s
  | .msgStartDec => Sys2Proof.Machine.execMsgStartDec s
  | .msgNext => Sys2Proof.Machine.execMsgNext s
  | .msgAbort => Sys2Proof.Machine.execMsgAbort s
  | .sbox => Sys2Proof.Machine.execSbox s
  | .invSbox => Sys2Proof.Machine.execInvSbox s
  | .gfInv => Sys2Proof.Machine.execGfInv s
  | .gfMul => Sys2Proof.Machine.execGfMul s
  | .zeroize => Sys2Proof.Machine.execZeroize s

end Sys2Proof.Machine
end

