-- ==== Sys2Proof/Machine/Bus.lean ====
section
/-! DEFINITION. The register window: what a read returns (20_memory.md rule R77), what a write does (R78), how a malformed
transaction is refused (R73, R74), where the window lies (R70, R82), and how the bus signals make a transaction (R71). -/

namespace Sys2Proof.Machine

/-- ID reads 0x41455331 (R22). -/
def idWord : Word := 0x41455331#32

/-- The value a well-formed read returns (R77); it has no side effect (R81). -/
def readReg (r : Reg) (s : State) : Word :=
  match r with
  | .id => idWord
  | .ctrl => (BitVec.ofBool s.irqEn).setWidth 32
  | .cmd => 0x00000000#32
  | .status => statusWord s
  | .key _ => 0x00000000#32
  | .din _ => 0x00000000#32
  | .dout j => s.dout.get j
  | .blkcnt => s.blkcnt.setWidth 32
  | .blkidx => s.blkidx.setWidth 32
  | .gfb => s.gfb.setWidth 32

/-- A word written to CMD: an illegal word raises ILLEGAL_CMD before every other check, a legal one is the command's own
meaning (R210, R211, R233). -/
def writeCmd (v : Word) (s : State) : Host.Outcome State Fault Refusal :=
  match decode v with
  | .error _ => .next (raiseError .illegalCmd s)
  | .ok i => exec i s

/-- The effect of a well-formed write (R78): writes to read-only registers are ignored (R80). -/
def writeReg (r : Reg) (v : Word) (s : State) : Host.Outcome State Fault Refusal :=
  match r with
  | .id => .next s
  | .ctrl => .next { s with irqEn := v.getLsbD 0 }
  | .cmd => writeCmd v s
  | .status => .next (clearStatus v s)
  | .key j => .next { s with key := s.key.set j v, keyWr := markWritten s.keyWr j }
  | .din j => .next { s with din := s.din.set j v, dinWr := markWritten s.dinWr j }
  | .dout _ => .next s
  | .blkcnt => .next { s with blkcnt := v.extractLsb' 0 16 }
  | .blkidx => .next s
  | .gfb => .next { s with gfb := v.extractLsb' 0 8 }

/-- The core answers a transaction (R71). -/
def answer (r : Response) (s : State) : State := { s with resp := some r }

/-- A malformed transaction: the error record, and the answer given (R74). -/
def refuseAccess (r : Response) (s : State) : State := answer r (raiseError .bus s)

/-- One transaction (R72, R73, R74). A refused read returns 0x00000000 with `pslverr`; a refused write writes no byte. -/
def access (t : Txn) (s : State) : Host.Outcome State Fault Refusal :=
  match t with
  | .read off =>
    match decodeOffset off with
    | .error _ => .next (refuseAccess (.readData 0x00000000#32 true) s)
    | .ok r => .next (answer (.readData (readReg r s) false) s)
  | .write off v strb =>
    match decodeOffset off with
    | .error _ => .next (refuseAccess (.writeDone true) s)
    | .ok r =>
      if strb = 0xF#4 then writeReg r v (answer (.writeDone false) s)
      else .next (refuseAccess (.writeDone true) s)

/-- The address of a window offset in the host's address space (R7, R82). -/
def busAddress (off : Offset) : Nat := Config.base + off.toNat

/-- The window offset of a host address, if the address lies in the 256-byte window (R70). -/
def windowOffset (addr : Nat) : Option Offset :=
  if Config.base ≤ addr ∧ addr < Config.base + 256 then some (BitVec.ofNat 8 (addr - Config.base)) else none

/-- The inputs of the RTL port at a rising edge of `clk` (R71). -/
structure PortInputs where
  rstN : Bool
  psel : Bool
  penable : Bool
  pwrite : Bool
  paddr : BitVec 8
  pwdata : BitVec 32
  pstrb : BitVec 4
  pprot : BitVec 3
  deriving DecidableEq, Repr

/-- What the edge amounts to in the transaction model (R71): a transaction takes effect at the edge that ends its access
phase, `pprot` is ignored (R313), and reset wins over a transaction it overlaps (R342). Assumption log 10. -/
def eventOf (p : PortInputs) : Event :=
  if !p.rstN then .reset
  else if p.psel && p.penable then
    .access (if p.pwrite then .write p.paddr p.pwdata p.pstrb else .read p.paddr)
  else .idle

/-- The outputs of the RTL port after a step (R71): `prdata` and `pslverr` as the answer to the transaction, if the step was
one; `pready` tied to 1; the `irq` level. -/
structure PortOutputs where
  response : Option Response
  pready : Bool
  irq : Bool
  deriving DecidableEq, Repr

/-- The port's outputs in a state (R71, R74, R43). -/
def portOutputs (s : State) : PortOutputs := { response := s.resp, pready := true, irq := irq s }

end Sys2Proof.Machine
end

