-- ==== Sys2Proof/Machine/Completion.lean ====
section
/-! DEFINITION. The core agent's one step, the completion of the pending command (43_commands.md rule R212). Beside the
completion effects of each command stand the acceptance effects of its own rule, by command, for statements to name. -/

namespace Sys2Proof.Machine

/-- The acceptance effects of the command's own rule (R220 to R232), beyond the common ones of R211. -/
def ownAcceptance (i : Instr) (s : State) : State :=
  match i with
  | .nop => acceptNop s
  | .expandKey => acceptExpandKey s
  | .encBlock => acceptEncBlock s
  | .decBlock => acceptDecBlock s
  | .msgStartEnc => acceptMsgStartEnc s
  | .msgStartDec => acceptMsgStartDec s
  | .msgNext => acceptMsgNext s
  | .msgAbort => acceptMsgAbort s
  | .sbox => acceptSbox s
  | .invSbox => acceptInvSbox s
  | .gfInv => acceptGfInv s
  | .gfMul => acceptGfMul s
  | .zeroize => acceptZeroize s

/-- The completion effects of the command's own rule (R220 to R232). -/
def ownCompletion (i : Instr) (p : Pending) (s : State) : State :=
  match i with
  | .nop => completeNop p s
  | .expandKey => completeExpandKey p s
  | .encBlock => completeEncBlock p s
  | .decBlock => completeDecBlock p s
  | .msgStartEnc => completeMsgStartEnc p s
  | .msgStartDec => completeMsgStartDec p s
  | .msgNext => completeMsgNext p s
  | .msgAbort => completeMsgAbort p s
  | .sbox => completeSbox p s
  | .invSbox => completeInvSbox p s
  | .gfInv => completeGfInv p s
  | .gfMul => completeGfMul p s
  | .zeroize => completeZeroize p s

/-- `complete()` (R212), enabled exactly when a command is pending; without one nothing happens. All effects appear in this
one step. -/
def complete (s : State) : State :=
  match s.pend with
  | none => s
  | some p => finish (ownCompletion p.op p s)

end Sys2Proof.Machine
end

