-- ==== Sys2Proof/Machine/Agents.lean ====
section
/-! DEFINITION. The three kinds of step (00_scope.md rule R6): the host's (one event of the script), the core's (the completion
of the pending command) and reset, and which of them a state takes next. -/

namespace Sys2Proof.Machine

/-- The pending command's completion step is due. -/
def completionDue (s : State) : Bool := s.pend.isSome && s.wait == 0

/-- One step of waiting has passed for the pending command. -/
def tick (s : State) : State := { s with wait := s.wait - 1 }

/-- The outside has taken its next event; `rest` is to come. -/
def takeEvent (rest : List Event) (s : State) : State := { s with script := rest }

/-- `s` with an event placed first in the script. -/
def pushEvent (e : Event) (s : State) : State := { s with script := e :: s.script }

/-- The outside's step (R72): its next event, if there is one; without one the core waits for the host (R343). A poll stays
the next event as long as the STATUS it reads has BUSY = 1 (R107). -/
def hostStep (s : State) : Host.Outcome State Fault Refusal :=
  match s.script with
  | [] => .next (tick s)
  | .idle :: rest => .next (tick (takeEvent rest s))
  | .access t :: rest => access t (tick (takeEvent rest s))
  | .pollBusy :: rest => access (.read (offsetOf .status)) (tick (if busy s then s else takeEvent rest s))
  | .reset :: rest => .next (resetCore (takeEvent rest s))

/-- The core's step (R212). -/
def coreStep (s : State) : Host.Outcome State Fault Refusal := .next (complete s)

/-- Whether the next event is a reset. -/
def resetNext (s : State) : Bool :=
  match s.script with
  | .reset :: _ => true
  | [] => false
  | .idle :: _ => false
  | .access _ :: _ => false
  | .pollBusy :: _ => false

/-- The step a state takes: a reset may come between any two steps (R340); otherwise a completion that is due comes before
the next host transaction, never inside one (R84); otherwise it is the outside's turn (assumption log 8). -/
def agentStep (s : State) : Host.Outcome State Fault Refusal :=
  if completionDue s && !resetNext s then coreStep s else hostStep s

/-- The event that writes a command word to CMD (R100). -/
def commandEvent (w : Word) : Event := .access (.write 0x08#8 w 0xF#4)

/-- `s` with an event placed first in the script and, where a completion would otherwise come first, one more step of
waiting, so that the very next step takes that event (assumption log 5). -/
def withNextEvent (e : Event) (s : State) : State :=
  { s with
    script := e :: s.script
    wait := if completionDue s then 1 else s.wait }

end Sys2Proof.Machine
end

