-- ==== Sys2Proof/Machine/Step.lean ====
section
/-! DEFINITION. One step of the machine, and the placing of a command word where the next step takes it. -/

namespace Sys2Proof.Machine

/-- One step: of the core, of the host, or a reset (R6). -/
def step (s : State) : Host.Outcome State Fault Refusal := agentStep s

/-- `s` with the command word `w` (the low `nbits` bits of it) as the next thing the host writes to CMD. The core fetches
nothing (R36, R88): the host hands it each command. -/
def State.withFetchWord (s : State) (nbits w : Nat) : State :=
  withNextEvent (commandEvent (BitVec.ofNat 32 (w % 2 ^ nbits))) s

end Sys2Proof.Machine
end

