-- ==== Sys2Proof/Machine/HostText.lean ====
section
/-! DEFINITION. The host's side, byte strings and text (44_host_framing.md rules R270, R271, R279): UTF-8 and Base64, as pure
functions. No part of the core (assumption log 9). -/

namespace Sys2Proof.Machine

/-- A finite sequence of Bytes. -/
abbrev ByteString := List Byte

/-- A finite sequence of Unicode scalar values (R270): a Lean `Char` is exactly one. -/
abbrev Text := List Char

/-- The closed enumeration of the host's error kinds (R279). -/
inductive ErrorKind where
  | inputValidationError
  | keyLengthError
  | paddingError
  | lengthError
  | decodingError
  deriving DecidableEq, Repr

/-- The UTF-8 bytes of one scalar value (R270). -/
def utf8Char (c : Char) : ByteString :=
  let n := c.toNat
  if n < 0x80 then [BitVec.ofNat 8 n]
  else if n < 0x800 then [BitVec.ofNat 8 (0xC0 + n / 64), BitVec.ofNat 8 (0x80 + n % 64)]
  else if n < 0x10000 then
    [BitVec.ofNat 8 (0xE0 + n / 4096), BitVec.ofNat 8 (0x80 + n / 64 % 64), BitVec.ofNat 8 (0x80 + n % 64)]
  else
    [BitVec.ofNat 8 (0xF0 + n / 262144), BitVec.ofNat 8 (0x80 + n / 4096 % 64), BitVec.ofNat 8 (0x80 + n / 64 % 64),
      BitVec.ofNat 8 (0x80 + n % 64)]

/-- `utf8Encode(t)` (R270). -/
def utf8Encode (t : Text) : ByteString := t.flatMap utf8Char

/-- The value of a continuation byte `10xxxxxx`. -/
def contBits (b : Byte) : Option Nat := if b.toNat / 64 = 2 then some (b.toNat % 64) else none

/-- The scalar value `n`, if there is one and its shortest form has this length (`least` is the first value of the length):
no surrogate, nothing above U+10FFFF (R270). -/
def scalarFrom (least n : Nat) : Option Char :=
  if least ≤ n ∧ n.isValidChar then some (Char.ofNat n) else none

/-- The text whose UTF-8 encoding is the string, if it is well formed (R270). -/
def utf8Read : ByteString → Option Text
  | [] => some []
  | b0 :: rest0 =>
    let n0 := b0.toNat
    if n0 < 0x80 then (utf8Read rest0).map (Char.ofNat n0 :: ·)
    else
      match rest0 with
      | [] => none
      | b1 :: rest1 =>
        match contBits b1 with
        | none => none
        | some n1 =>
          if 0xC0 ≤ n0 ∧ n0 < 0xE0 then
            match scalarFrom 0x80 (n0 % 32 * 64 + n1) with
            | none => none
            | some c => (utf8Read rest1).map (c :: ·)
          else
            match rest1 with
            | [] => none
            | b2 :: rest2 =>
              match contBits b2 with
              | none => none
              | some n2 =>
                if 0xE0 ≤ n0 ∧ n0 < 0xF0 then
                  match scalarFrom 0x800 (n0 % 16 * 4096 + n1 * 64 + n2) with
                  | none => none
                  | some c => (utf8Read rest2).map (c :: ·)
                else
                  match rest2 with
                  | [] => none
                  | b3 :: rest3 =>
                    match contBits b3 with
                    | none => none
                    | some n3 =>
                      if 0xF0 ≤ n0 ∧ n0 < 0xF8 then
                        match scalarFrom 0x10000 (n0 % 8 * 262144 + n1 * 4096 + n2 * 64 + n3) with
                        | none => none
                        | some c => (utf8Read rest3).map (c :: ·)
                      else none

/-- `utf8Decode(x)` (R270). -/
def utf8Decode (x : ByteString) : Except ErrorKind Text :=
  match utf8Read x with
  | some t => .ok t
  | none => .error .decodingError

/-- The Base64 character of a value below 64: `A-Z a-z 0-9 + /` (R271). -/
def base64Char (v : Nat) : Char :=
  if v < 26 then Char.ofNat (65 + v)
  else if v < 52 then Char.ofNat (97 + (v - 26))
  else if v < 62 then Char.ofNat (48 + (v - 52))
  else if v = 62 then '+'
  else '/'

/-- The value of a Base64 character (R271). -/
def base64Value (c : Char) : Option Nat :=
  let n := c.toNat
  if 65 ≤ n ∧ n ≤ 90 then some (n - 65)
  else if 97 ≤ n ∧ n ≤ 122 then some (n - 97 + 26)
  else if 48 ≤ n ∧ n ≤ 57 then some (n - 48 + 52)
  else if c = '+' then some 62
  else if c = '/' then some 63
  else none

/-- `base64Encode(x)` (R271). -/
def base64Encode : ByteString → Text
  | [] => []
  | [a] => [base64Char (a.toNat / 4), base64Char (a.toNat % 4 * 16), '=', '=']
  | [a, b] =>
    [base64Char (a.toNat / 4), base64Char (a.toNat % 4 * 16 + b.toNat / 16), base64Char (b.toNat % 16 * 4), '=']
  | a :: b :: c :: rest =>
    base64Char (a.toNat / 4) :: base64Char (a.toNat % 4 * 16 + b.toNat / 16) ::
      base64Char (b.toNat % 16 * 4 + c.toNat / 64) :: base64Char (c.toNat % 64) :: base64Encode rest

/-- The byte string of which the text is the canonical encoding, if there is one (R271): whole groups of four, `=` only at
the end, unused low bits zero. -/
def base64Read : Text → Option ByteString
  | [] => some []
  | c0 :: c1 :: c2 :: c3 :: rest =>
    match base64Value c0, base64Value c1, base64Value c2, base64Value c3 with
    | some v0, some v1, some v2, some v3 =>
      (base64Read rest).map fun x =>
        BitVec.ofNat 8 (v0 * 4 + v1 / 16) :: BitVec.ofNat 8 (v1 % 16 * 16 + v2 / 4) :: BitVec.ofNat 8 (v2 % 4 * 64 + v3) :: x
    | some v0, some v1, some v2, none =>
      if c3 = '=' ∧ rest = [] ∧ v2 % 4 = 0 then
        some [BitVec.ofNat 8 (v0 * 4 + v1 / 16), BitVec.ofNat 8 (v1 % 16 * 16 + v2 / 4)]
      else none
    | some v0, some v1, none, none =>
      if c2 = '=' ∧ c3 = '=' ∧ rest = [] ∧ v1 % 16 = 0 then some [BitVec.ofNat 8 (v0 * 4 + v1 / 16)] else none
    | _, _, _, _ => none
  | _ => none

/-- `base64Decode(t)` (R271). -/
def base64Decode (t : Text) : Except ErrorKind ByteString :=
  match base64Read t with
  | some x => .ok x
  | none => .error .decodingError

end Sys2Proof.Machine
end

