-- ==== Sys2Proof/Machine/HostMessage.lean ====
section
/-! DEFINITION. The host's side, padding, splitting and the message functions (44_host_framing.md rules R272 to R278). No part
of the core (assumption log 9). -/

namespace Sys2Proof.Machine

/-- The direction of a message. -/
inductive Direction where
  | enc
  | dec
  deriving DecidableEq, Repr

/-- `N = 16 - (len(x) mod 16)` (R272). -/
def padCount (x : ByteString) : Nat := 16 - x.length % 16

/-- `pad(x)`, PKCS#7 (R272). -/
def pad (x : ByteString) : ByteString := x ++ List.replicate (padCount x) (BitVec.ofNat 8 (padCount x))

/-- `unpad(y)` (R273). -/
def unpad (y : ByteString) : Except ErrorKind ByteString :=
  match y.getLast? with
  | none => .error .paddingError
  | some last =>
    let n := last.toNat
    if n < 1 ∨ 16 < n ∨ y.length < n then .error .paddingError
    else if (y.drop (y.length - n)).all (· == last) then .ok (y.take (y.length - n))
    else .error .paddingError

/-- The Block of the first sixteen bytes of a string. -/
def blockOfBytes (y : ByteString) : Block :=
  let b (i : Nat) : Byte := y.getD i 0x00#8
  ⟨⟨b 0, b 1, b 2, b 3⟩, ⟨b 4, b 5, b 6, b 7⟩, ⟨b 8, b 9, b 10, b 11⟩, ⟨b 12, b 13, b 14, b 15⟩⟩

/-- The first `n` Blocks of a string, in order. -/
def takeBlocks (n : Nat) (y : ByteString) : List Block :=
  match n with
  | 0 => []
  | n + 1 => blockOfBytes y :: takeBlocks n (y.drop 16)

/-- `split(y)` for `len(y) = 16n` (R274). -/
def splitBlocks (y : ByteString) : List Block := takeBlocks (y.length / 16) y

/-- `concat`, the inverse of `split` (R274). -/
def concatBlocks (bs : List Block) : ByteString := bs.flatMap Block.toBytes

/-- The cipher of a direction. -/
def directedCipher (d : Direction) (b : Block) (rk : Schedule) : Block :=
  match d with
  | .enc => cipher b rk
  | .dec => invCipher b rk

/-- `ecbRun(D, K, P)` (R275): each Block on its own, in order. -/
def ecbRun (d : Direction) (key : Block) (bs : List Block) : List Block :=
  bs.map fun b => directedCipher d b (keyExpansion key)

/-- `encryptMessage(text, key)` (R275). -/
def encryptMessage (text : Text) (key : Block) : Text :=
  base64Encode (concatBlocks (ecbRun .enc key (splitBlocks (pad (utf8Encode text)))))

/-- `decryptMessage(b64, key)` (R276). -/
def decryptMessage (b64 : Text) (key : Block) : Except ErrorKind Text :=
  match base64Decode b64 with
  | .error e => .error e
  | .ok x =>
    if x.length = 0 ∨ x.length % 16 ≠ 0 then .error .lengthError
    else
      match unpad (concatBlocks (ecbRun .dec key (splitBlocks x))) with
      | .error e => .error e
      | .ok m => utf8Decode m

/-- Key sensitivity of a text and two keys (R285): decrypting under the second what the first encrypted fails, or gives
another text. R285: "cannot be proved from the rules", a property to check on test vectors. -/
abbrev KeySensitive (text : Text) (k1 k2 : Block) : Prop :=
  k1 ≠ k2 ∧ decryptMessage (encryptMessage text k1) k2 ≠ .ok text

/-- `encrypt(text, key)` (R277). -/
def encrypt (text key : Text) : Except ErrorKind Text :=
  if text = [] ∨ key = [] then .error .inputValidationError
  else if (utf8Encode key).length ≠ 16 then .error .keyLengthError
  else .ok (encryptMessage text (blockOfBytes (utf8Encode key)))

/-- `decrypt(b64, key)` (R277). -/
def decrypt (b64 key : Text) : Except ErrorKind Text :=
  if b64 = [] ∨ key = [] then .error .inputValidationError
  else if (utf8Encode key).length ≠ 16 then .error .keyLengthError
  else decryptMessage b64 (blockOfBytes (utf8Encode key))

/-- `encrypt` in a host language that can pass an absent argument: it counts as an empty one (R277). -/
def encryptOptional (text key : Option Text) : Except ErrorKind Text := encrypt (text.getD []) (key.getD [])

/-- `decrypt` likewise (R277). -/
def decryptOptional (b64 key : Option Text) : Except ErrorKind Text := decrypt (b64.getD []) (key.getD [])

end Sys2Proof.Machine
end

