-- ==== Sys2Proof/Machine/Script.lean ====
section
/-! DEFINITION. Host scripts (30_encoding.md rules R106 to R109): the expansion of the pseudo-statements into transactions, the
encoding of a script as text, and the register names. -/

namespace Sys2Proof.Machine

/-- `W <reg>, <imm32>`: `MemWrite(off(reg), 4, imm32)` with all strobes (R106). -/
def writeTxn (off : Offset) (v : Word) : Txn := .write off v 0xF#4

/-- Four writes of a block's words to a register group (R107). -/
def loadTxns (reg : Fin 4 → Reg) (b : Block) : List Txn :=
  [writeTxn (offsetOf (reg 0)) ((wordsOf b).get 0), writeTxn (offsetOf (reg 1)) ((wordsOf b).get 1),
    writeTxn (offsetOf (reg 2)) ((wordsOf b).get 2), writeTxn (offsetOf (reg 3)) ((wordsOf b).get 3)]

/-- The transactions of a statement (R106, R107). A `WAIT` reads STATUS until BUSY reads 0, at least once; the number of reads
is not fixed, so an expansion is given how many follow the first, which no other statement uses. -/
def expandStmt (further : Nat) : Stmt → List Txn
  | .w off imm => [writeTxn off imm]
  | .r off => [.read off]
  | .cmd i => [writeTxn (offsetOf .cmd) (encode i)]
  | .ldkey k => loadTxns .key k
  | .ldblk b => loadTxns .din b
  | .rdout => [.read (offsetOf (.dout 0)), .read (offsetOf (.dout 1)), .read (offsetOf (.dout 2)), .read (offsetOf (.dout 3))]
  | .wait => List.replicate (further + 1) (.read (offsetOf .status))
  | .clear => [writeTxn (offsetOf .status) 0x00000086#32]
  | .irqon => [writeTxn (offsetOf .ctrl) 0x00000001#32]
  | .irqoff => [writeTxn (offsetOf .ctrl) 0x00000000#32]

/-- What the host does for a statement: `WAIT` is the loop (R107), every other statement its transactions. -/
def stmtEvents : Stmt → List Event
  | .wait => [.pollBusy]
  | stmt => (expandStmt 0 stmt).map Event.access

/-- A script's events, statement after statement: what to place in `State.script` for the machine to run it. -/
def scriptEvents (stmts : List Stmt) : List Event := stmts.flatMap stmtEvents

/-- The transactions of a script (R108): its `WAIT`s in turn take the listed numbers of reads beyond the first, and no
further read where the list has ended. -/
def scriptTxns : List Nat → List Stmt → List Txn
  | _, [] => []
  | furthers, .wait :: rest => expandStmt (furthers.headD 0) .wait ++ scriptTxns furthers.tail rest
  | furthers, stmt :: rest => expandStmt 0 stmt ++ scriptTxns furthers rest

/-- The hex digit of a value below 16, the letters as capitals or not. -/
def hexDigit (capital : Bool) (n : Nat) : Char :=
  if n < 10 then Char.ofNat (48 + n) else Char.ofNat ((if capital then 55 else 87) + n)

/-- The low `digits` hex digits of a number, most significant first. -/
def hexText (capital : Bool) (digits n : Nat) : List Char :=
  match digits with
  | 0 => []
  | d + 1 => hexDigit capital (n / 16 ^ d % 16) :: hexText capital d n

/-- The encoding of a transaction: `W <off> <data>` or `R <off>`, the offset as two hex digits, the data as eight (R108). Its
examples write an offset's letters as capitals and a datum's not (assumption log 12). The strobes have no place in it: a script's writes have all
four. -/
def txnText : Txn → List Char
  | .read off => ['R', ' '] ++ hexText true 2 off.toNat
  | .write off v _ => ['W', ' '] ++ hexText true 2 off.toNat ++ [' '] ++ hexText false 8 v.toNat

/-- The encoding of a script: the list of its transactions (R108), a `WAIT` being one `R 0C` or more. -/
def scriptText (furthers : List Nat) (stmts : List Stmt) : List (List Char) := (scriptTxns furthers stmts).map txnText

/-- The register names of scripts (R109). -/
def regName : Reg → String
  | .id => "ID"
  | .ctrl => "CTRL"
  | .cmd => "CMD"
  | .status => "STATUS"
  | .key j => "KEY" ++ toString j.val
  | .din j => "DIN" ++ toString j.val
  | .dout j => "DOUT" ++ toString j.val
  | .blkcnt => "BLKCNT"
  | .blkidx => "BLKIDX"
  | .gfb => "GFB"

end Sys2Proof.Machine
end

