-- ==== Sys2Proof/Machine/HostDriver.lean ====
section
/-! DEFINITION. The host's drivers (44_host_framing.md rules R280 to R282): host programs over the machine's own step, which
write registers, wait and read. A driver has the core to itself (R283, R349): each of its transactions goes to the head of the
script (assumption log 9). No part of the core. -/

namespace Sys2Proof.Machine

/-- One step, for a program that goes on; a step that stops leaves the state (no step does). -/
def advance (s : State) : State :=
  match step s with
  | .next t => t
  | .fault _ => s
  | .refused _ => s

/-- `n` steps, for a program that goes on. -/
def advanceBy (n : Nat) (s : State) : State := advance^[n] s

/-- The steps after which an event, placed first, has been taken. A completion that is due comes before it. A poll (`WAIT`,
R107) takes one read for each step still to wait, the completion, and the read that shows BUSY = 0: it ends because the
pending command completes (R246). -/
def stepsToTake (e : Event) (s : State) : Nat :=
  match e with
  | .pollBusy => if busy s then s.wait + 2 else 1
  | .access _ | .idle => if completionDue s then 2 else 1
  | .reset => 1

/-- The host makes an event happen, before all that is still to come. -/
def performEvent (s : State) (e : Event) : State := advanceBy (stepsToTake e s) (pushEvent e s)

/-- The host performs a statement (R106, R107). -/
def perform (stmt : Stmt) (s : State) : State := (stmtEvents stmt).foldl performEvent s

/-- The host runs a script, statement after statement. -/
def runScript (stmts : List Stmt) (s : State) : State := stmts.foldl (fun t stmt => perform stmt t) s

/-- The data of the last read (zero if the last transaction was no read). -/
def lastData (s : State) : Word :=
  match s.resp with
  | some (.readData v _) => v
  | some (.writeDone _) => 0x00000000#32
  | none => 0x00000000#32

/-- `R <off>` and the word it returns. -/
def readAt (off : Offset) (s : State) : Word × State :=
  let t := perform (.r off) s
  (lastData t, t)

/-- A command and its `WAIT`. -/
def runCommand (i : Instr) (s : State) : State := perform .wait (perform (.cmd i) s)

/-- `RDOUT` and the block it returns. -/
def readOutput (s : State) : Block × State :=
  let (w0, s0) := readAt (offsetOf (.dout 0)) s
  let (w1, s1) := readAt (offsetOf (.dout 1)) s0
  let (w2, s2) := readAt (offsetOf (.dout 2)) s1
  let (w3, s3) := readAt (offsetOf (.dout 3)) s2
  (blockOf ⟨w0, w1, w2, w3⟩, s3)

/-- What a driver call ends in: its Blocks, or a driver fault, which is never turned into output (R282). -/
inductive DriverResult where
  | done (out : List Block) (s : State)
  | driverFault (s : State)
  deriving DecidableEq, Repr

/-- The end of a call on a core error: `CLEAR`, then `CMD ZEROIZE` and `WAIT` (R282). -/
def giveUp (s : State) : DriverResult := .driverFault (runCommand .zeroize (perform .clear s))

/-- `check()` and then the rest of the call, unless ERR = 1 (R280, R282). -/
def checked (s : State) (rest : State → DriverResult) : DriverResult :=
  let (v, t) := readAt (offsetOf .status) s
  if v.getLsbD 2 then giveUp t else rest t

/-- Each Block of a list through one command: load, command, wait, check, read (R280, R281), then `rest` with all outputs. -/
def runBlocks (i : Instr) (bs : List Block) (out : List Block) (s : State) (rest : List Block → State → DriverResult) :
    DriverResult :=
  match bs with
  | [] => rest out s
  | b :: more =>
    checked (runCommand i (perform (.ldblk b) s)) fun t =>
      let (o, u) := readOutput t
      runBlocks i more (out ++ [o]) u rest

/-- The message start of a direction. -/
def startCommand : Direction → Instr
  | .enc => .msgStartEnc
  | .dec => .msgStartDec

/-- The block command of a direction. -/
def blockCommand : Direction → Instr
  | .enc => .encBlock
  | .dec => .decBlock

/-- The runs of at most 65535 consecutive Blocks (R280), `n` bounding their number. -/
def blockRuns (n : Nat) (bs : List Block) : List (List Block) :=
  match n, bs with
  | 0, _ => []
  | _ + 1, [] => []
  | n + 1, b :: more => (b :: more).take 65535 :: blockRuns n ((b :: more).drop 65535)

/-- The messages of `ecbRunMsg`, one for each run (R280). -/
def runMessages (d : Direction) (key : Block) (runs : List (List Block)) (out : List Block) (s : State) : DriverResult :=
  match runs with
  | [] => .done out s
  | run :: more =>
    let s1 := perform (.ldkey key) s
    let s2 := perform (.w (offsetOf .blkcnt) (BitVec.ofNat 32 run.length)) s1
    checked (runCommand (startCommand d) s2) fun s3 =>
      runBlocks .msgNext run out s3 fun out' s4 => runMessages d key more out' s4

/-- `ecbRunMsg(D, K, P)`, the message-mode driver (R280). -/
def ecbRunMsg (d : Direction) (key : Block) (bs : List Block) (s : State) : DriverResult :=
  runMessages d key (blockRuns bs.length bs) [] s

/-- `ecbRunBlk(D, K, P)`, the block-mode driver (R281); its final ZEROIZE is part of it. -/
def ecbRunBlk (d : Direction) (key : Block) (bs : List Block) (s : State) : DriverResult :=
  checked (runCommand .expandKey (perform (.ldkey key) s)) fun s1 =>
    runBlocks (blockCommand d) bs [] s1 fun out s2 => .done out (runCommand .zeroize s2)

end Sys2Proof.Machine
end

