-- ==== Sys2Proof/Safety.lean ====
section
/-! DEFINITION. What counts as a sound state of the core, in the terms claims use: the invariants the spec states of every
reachable state, and what two states that differ in secrets only have in common. -/

namespace Sys2Proof.Machine

/-- RK is zero while no schedule is held (R40), and otherwise the expansion of its own first round key (R155). -/
def ScheduleSound (s : State) : Prop :=
  (s.fsm = .idle → s.rk = Schedule.zero) ∧ (s.fsm ≠ .idle → s.rk = keyExpansion s.rk.k0)

/-- In a message, `BLKIDX < msg_cnt` (R241). -/
def MessageCounted (s : State) : Prop := s.fsm.inMessage = true → s.blkidx < s.msgCnt

/-- ERRCODE is 0 exactly when ERR is 0, and never one of the reserved codes 0x9 to 0xF (R302). -/
def ErrorRecordSound (s : State) : Prop := (s.errcode = 0x0#4 ↔ s.err = false) ∧ s.errcode ≤ 0x8#4

/-- What acceptance has made sure of for the pending command and host writes cannot undo: its state is legal (R213), a
message start has counted at least one block (R214), DONE and a DOUT-producer's DOUT_VALID are down (R27, R30), and an operand
it does not read is zero (R41). Without one, nothing is awaited. -/
def PendingSound (s : State) : Prop :=
  match s.pend with
  | none => s.wait = 0
  | some p =>
    stateError p.op s.fsm = none ∧ (isMsgStart p.op = true → s.msgCnt ≠ 0#16) ∧ s.done = false ∧
      (producesDout p.op = true → s.doutValid = false) ∧ (needsKey p.op = false → p.lkey = Block.zero) ∧
      (needsDin p.op = false → p.ldin = Block.zero) ∧ (p.op ≠ .gfMul → p.lgfb = 0x00#8)

/-- The invariant of the machine. -/
structure Inv (s : State) : Prop where
  schedule : ScheduleSound s
  message : MessageCounted s
  errors : ErrorRecordSound s
  pending : PendingSound s

/-- The core's next step is the completion of command `i`, latched as `p` (R212). -/
def DueWith (i : Instr) (p : Pending) (s : State) : Prop :=
  s.pend = some p ∧ p.op = i ∧ s.wait = 0 ∧ resetNext s = false

/-- A state with its secrets blotted out: the key registers, the latched key and the round keys (R244). -/
def withoutSecrets (s : State) : State :=
  { s with
    key := Quad.const 0x00000000#32
    rk := Schedule.zero
    pend := s.pend.map fun p => { p with lkey := Block.zero } }

/-- Two states that differ in secrets only. -/
def SameButSecrets (s t : State) : Prop := withoutSecrets s = withoutSecrets t

/-- The completion that is due puts a cipher output, which depends on the round keys, into DOUT. -/
def cipherDue (s : State) : Prop :=
  completionDue s = true ∧ ∃ p, s.pend = some p ∧ (p.op = .encBlock ∨ p.op = .decBlock ∨ p.op = .msgNext)

end Sys2Proof.Machine
end

