-- ==== Sys2Proof/Certificates/Slice0/Obligations.lean ====
section
/-! DEFINITION. The statements for the provers, from the spec's numbered rules: decoding, the bus, errors, each command, steps and
whole-machine rules, the arithmetic, the host's side. -/

open Sys2Proof Sys2Proof.Machine

/-- R101, in both directions: decode and encode agree, and legality is what the rule says. -/
def Obligations.DecoderAcceptsExactlyTheLegalWords : Prop :=
  ∀ v : Word,
    (∀ i : Instr, decode v = .ok i ↔ v = encode i) ∧
    ((∃ i : Instr, decode v = .ok i) ↔ (v.extractLsb' 4 28 = 0#28 ∧ (v.extractLsb' 0 4).toNat ≤ 0xC)) ∧
    (¬ (v.extractLsb' 4 28 = 0#28 ∧ (v.extractLsb' 0 4).toNat ≤ 0xC) →
      ∀ s : State, writeCmd v s = .next (raiseError .illegalCmd s))

/-- The opcode map of R103, word by word. -/
def Obligations.OpcodeMapReadsTheThirteenWords : Prop :=
  decode 0x00000000#32 = .ok .nop ∧ decodeTableWord 32 0x00000000 = some .nop ∧
    decode 0x00000001#32 = .ok .expandKey ∧ decodeTableWord 32 0x00000001 = some .expandKey ∧
    decode 0x00000002#32 = .ok .encBlock ∧ decodeTableWord 32 0x00000002 = some .encBlock ∧
    decode 0x00000003#32 = .ok .decBlock ∧ decodeTableWord 32 0x00000003 = some .decBlock ∧
    decode 0x00000004#32 = .ok .msgStartEnc ∧ decodeTableWord 32 0x00000004 = some .msgStartEnc ∧
    decode 0x00000005#32 = .ok .msgStartDec ∧ decodeTableWord 32 0x00000005 = some .msgStartDec ∧
    decode 0x00000006#32 = .ok .msgNext ∧ decodeTableWord 32 0x00000006 = some .msgNext ∧
    decode 0x00000007#32 = .ok .msgAbort ∧ decodeTableWord 32 0x00000007 = some .msgAbort ∧
    decode 0x00000008#32 = .ok .sbox ∧ decodeTableWord 32 0x00000008 = some .sbox ∧
    decode 0x00000009#32 = .ok .invSbox ∧ decodeTableWord 32 0x00000009 = some .invSbox ∧
    decode 0x0000000A#32 = .ok .gfInv ∧ decodeTableWord 32 0x0000000A = some .gfInv ∧
    decode 0x0000000B#32 = .ok .gfMul ∧ decodeTableWord 32 0x0000000B = some .gfMul ∧
    decode 0x0000000C#32 = .ok .zeroize ∧ decodeTableWord 32 0x0000000C = some .zeroize ∧
    decode 0x0000000D#32 = .error .reservedOpcode ∧ decode 0x0000000E#32 = .error .reservedOpcode ∧ decode 0x0000000F#32 = .error .reservedOpcode

/-- R109, with the offset decoder reading it back. -/
def Obligations.RegisterNamesStandAtTheirOffsets : Prop :=
  (∀ (off : Offset) (r : Reg), decodeOffset off = .ok r ↔ off = offsetOf r) ∧
    offsetOf .id = 0x00#8 ∧ regName .id = "ID" ∧
    offsetOf .ctrl = 0x04#8 ∧ regName .ctrl = "CTRL" ∧
    offsetOf .cmd = 0x08#8 ∧ regName .cmd = "CMD" ∧
    offsetOf .status = 0x0C#8 ∧ regName .status = "STATUS" ∧
    offsetOf (.key 0) = 0x10#8 ∧ regName (.key 0) = "KEY0" ∧
    offsetOf (.key 1) = 0x14#8 ∧ regName (.key 1) = "KEY1" ∧
    offsetOf (.key 2) = 0x18#8 ∧ regName (.key 2) = "KEY2" ∧
    offsetOf (.key 3) = 0x1C#8 ∧ regName (.key 3) = "KEY3" ∧
    offsetOf (.din 0) = 0x20#8 ∧ regName (.din 0) = "DIN0" ∧
    offsetOf (.din 1) = 0x24#8 ∧ regName (.din 1) = "DIN1" ∧
    offsetOf (.din 2) = 0x28#8 ∧ regName (.din 2) = "DIN2" ∧
    offsetOf (.din 3) = 0x2C#8 ∧ regName (.din 3) = "DIN3" ∧
    offsetOf (.dout 0) = 0x30#8 ∧ regName (.dout 0) = "DOUT0" ∧
    offsetOf (.dout 1) = 0x34#8 ∧ regName (.dout 1) = "DOUT1" ∧
    offsetOf (.dout 2) = 0x38#8 ∧ regName (.dout 2) = "DOUT2" ∧
    offsetOf (.dout 3) = 0x3C#8 ∧ regName (.dout 3) = "DOUT3" ∧
    offsetOf .blkcnt = 0x40#8 ∧ regName .blkcnt = "BLKCNT" ∧
    offsetOf .blkidx = 0x44#8 ∧ regName .blkidx = "BLKIDX" ∧
    offsetOf .gfb = 0x48#8 ∧ regName .gfb = "GFB"

/-- The first clause is R74, with R73's condition spelt out. The second, that every well-formed transaction answers pslverr = 0, a
refused or illegal command word among them, is no rule of the spec but the model's inference (DEDUCED, assumption log 3). -/
def Obligations.MalformedTransactionIsRefusedWithBus : Prop :=
  ∀ (x : Txn) (s : State),
    (¬ x.WellFormed →
      access x s =
        .next
          { raiseError .bus s with
            resp := some (match x with | .read _ => .readData 0x00000000#32 true | .write _ _ _ => .writeDone true) }) ∧
    (x.WellFormed →
      ∃ t : State, access x s = .next t ∧ (t.resp = some (.writeDone false) ∨ ∃ v : Word, t.resp = some (.readData v false)))

/-- R77, offset by offset; all of the core's state stands in the equation. -/
def Obligations.ReadReturnsTheRegisterWithoutSideEffect : Prop :=
  ∀ s : State,
    access (.read 0x00#8) s = .next { s with resp := some (.readData (0x41455331#32) false) } ∧
    access (.read 0x04#8) s = .next { s with resp := some (.readData ((BitVec.ofBool s.irqEn).setWidth 32) false) } ∧
    access (.read 0x08#8) s = .next { s with resp := some (.readData (0x00000000#32) false) } ∧
    access (.read 0x0C#8) s = .next { s with resp := some (.readData (statusWord s) false) } ∧
    access (.read 0x10#8) s = .next { s with resp := some (.readData (0x00000000#32) false) } ∧
    access (.read 0x14#8) s = .next { s with resp := some (.readData (0x00000000#32) false) } ∧
    access (.read 0x18#8) s = .next { s with resp := some (.readData (0x00000000#32) false) } ∧
    access (.read 0x1C#8) s = .next { s with resp := some (.readData (0x00000000#32) false) } ∧
    access (.read 0x20#8) s = .next { s with resp := some (.readData (0x00000000#32) false) } ∧
    access (.read 0x24#8) s = .next { s with resp := some (.readData (0x00000000#32) false) } ∧
    access (.read 0x28#8) s = .next { s with resp := some (.readData (0x00000000#32) false) } ∧
    access (.read 0x2C#8) s = .next { s with resp := some (.readData (0x00000000#32) false) } ∧
    access (.read 0x30#8) s = .next { s with resp := some (.readData (s.dout.a0) false) } ∧
    access (.read 0x34#8) s = .next { s with resp := some (.readData (s.dout.a1) false) } ∧
    access (.read 0x38#8) s = .next { s with resp := some (.readData (s.dout.a2) false) } ∧
    access (.read 0x3C#8) s = .next { s with resp := some (.readData (s.dout.a3) false) } ∧
    access (.read 0x40#8) s = .next { s with resp := some (.readData (s.blkcnt.setWidth 32) false) } ∧
    access (.read 0x44#8) s = .next { s with resp := some (.readData (s.blkidx.setWidth 32) false) } ∧
    access (.read 0x48#8) s = .next { s with resp := some (.readData (s.gfb.setWidth 32) false) }

/-- The read side of R25, with R26 and R29 for the derived fields. -/
def Obligations.StatusWordHoldsItsFields : Prop :=
  ∀ s : State,
    (statusWord s).getLsbD 0 = s.pend.isSome ∧
    (statusWord s).getLsbD 1 = s.done ∧
    (statusWord s).getLsbD 2 = s.err ∧
    (statusWord s).getLsbD 3 = decide (s.fsm ≠ .idle) ∧
    (statusWord s).getLsbD 4 = decide (s.fsm = .msgEnc ∨ s.fsm = .msgDec) ∧
    (statusWord s).getLsbD 5 = decide (s.fsm = .msgDec) ∧
    (statusWord s).getLsbD 6 = s.doutValid ∧
    (statusWord s).getLsbD 7 = s.msgDone ∧
    (statusWord s).extractLsb' 8 4 = s.keyWr ∧
    (statusWord s).extractLsb' 12 4 = s.dinWr ∧
    (statusWord s).extractLsb' 16 4 = s.errcode ∧
    (statusWord s).extractLsb' 20 12 = 0#12

/-- R78, offset by offset: each equation gives the whole next state, so it is the frame as well. -/
def Obligations.WriteHasItsTabledEffectOnly : Prop :=
  ∀ (s : State) (v : Word),
    access (.write 0x00#8 v 0xF#4) s =
      .next { s with resp := some (.writeDone false) } ∧
    access (.write 0x04#8 v 0xF#4) s =
      .next { s with irqEn := v.getLsbD 0, resp := some (.writeDone false) } ∧
    access (.write 0x08#8 v 0xF#4) s = writeCmd v { s with resp := some (.writeDone false) } ∧
    access (.write 0x0C#8 v 0xF#4) s =
      .next { s with done := if v.getLsbD 1 then false else s.done, err := if v.getLsbD 2 then false else s.err, errcode := if v.getLsbD 2 then 0x0#4 else s.errcode, msgDone := if v.getLsbD 7 then false else s.msgDone, resp := some (.writeDone false) } ∧
    access (.write 0x10#8 v 0xF#4) s =
      .next { s with key := { s.key with a0 := v }, keyWr := s.keyWr ||| 0b0001#4, resp := some (.writeDone false) } ∧
    access (.write 0x14#8 v 0xF#4) s =
      .next { s with key := { s.key with a1 := v }, keyWr := s.keyWr ||| 0b0010#4, resp := some (.writeDone false) } ∧
    access (.write 0x18#8 v 0xF#4) s =
      .next { s with key := { s.key with a2 := v }, keyWr := s.keyWr ||| 0b0100#4, resp := some (.writeDone false) } ∧
    access (.write 0x1C#8 v 0xF#4) s =
      .next { s with key := { s.key with a3 := v }, keyWr := s.keyWr ||| 0b1000#4, resp := some (.writeDone false) } ∧
    access (.write 0x20#8 v 0xF#4) s =
      .next { s with din := { s.din with a0 := v }, dinWr := s.dinWr ||| 0b0001#4, resp := some (.writeDone false) } ∧
    access (.write 0x24#8 v 0xF#4) s =
      .next { s with din := { s.din with a1 := v }, dinWr := s.dinWr ||| 0b0010#4, resp := some (.writeDone false) } ∧
    access (.write 0x28#8 v 0xF#4) s =
      .next { s with din := { s.din with a2 := v }, dinWr := s.dinWr ||| 0b0100#4, resp := some (.writeDone false) } ∧
    access (.write 0x2C#8 v 0xF#4) s =
      .next { s with din := { s.din with a3 := v }, dinWr := s.dinWr ||| 0b1000#4, resp := some (.writeDone false) } ∧
    access (.write 0x30#8 v 0xF#4) s =
      .next { s with resp := some (.writeDone false) } ∧
    access (.write 0x34#8 v 0xF#4) s =
      .next { s with resp := some (.writeDone false) } ∧
    access (.write 0x38#8 v 0xF#4) s =
      .next { s with resp := some (.writeDone false) } ∧
    access (.write 0x3C#8 v 0xF#4) s =
      .next { s with resp := some (.writeDone false) } ∧
    access (.write 0x40#8 v 0xF#4) s =
      .next { s with blkcnt := v.extractLsb' 0 16, resp := some (.writeDone false) } ∧
    access (.write 0x44#8 v 0xF#4) s =
      .next { s with resp := some (.writeDone false) } ∧
    access (.write 0x48#8 v 0xF#4) s =
      .next { s with gfb := v.extractLsb' 0 8, resp := some (.writeDone false) }

/-- R301, with the codes of R302. -/
def Obligations.FirstErrorIsCaptured : Prop :=
  (∀ (c : ErrCode) (s : State),
      (s.err = false → raiseError c s = { s with err := true, errcode := c.code }) ∧
      (s.err = true → raiseError c s = s) ∧
      (∀ d : ErrCode, raiseError d (raiseError c s) = raiseError c s)) ∧
    ErrCode.code .illegalCmd = 0x1#4 ∧ ErrCode.code .busy = 0x2#4 ∧ ErrCode.code .sequence = 0x3#4 ∧
    ErrCode.code .noKey = 0x4#4 ∧ ErrCode.code .keyLength = 0x5#4 ∧ ErrCode.code .blockLength = 0x6#4 ∧
    ErrCode.code .msgLength = 0x7#4 ∧ ErrCode.code .bus = 0x8#4

/-- The clearing rule of R307 over every step: no command, completion or ZEROIZE ends an error. -/
def Obligations.OnlyHostClearOrResetEndsAnError : Prop :=
  ∀ s t : State, step s = .next t →
    (s.err = true →
      (t.err = true ∧ t.errcode = s.errcode) ∨
      (t.err = false ∧ t.errcode = 0x0#4 ∧
        ((∃ rest, s.script = .reset :: rest) ∨
          (completionDue s = false ∧
            ∃ v rest, s.script = .access (.write 0x0C#8 v 0xF#4) :: rest ∧ v.getLsbD 2 = true)))) ∧
    (((∃ rest, s.script = .reset :: rest) ∨
        (completionDue s = false ∧ ∃ v rest, s.script = .access (.write 0x0C#8 v 0xF#4) :: rest ∧ v.getLsbD 2 = true)) →
      t.err = false ∧ t.errcode = 0x0#4)

/-- R300: errors are raised in exactly two places, and a completion is neither. -/
def Obligations.ErrorsComeFromTransactionsOnly : Prop :=
  ∀ s t : State, step s = .next t → s.err = false → t.err = true →
    completionDue s = false ∧
    ∃ x rest, s.script = .access x :: rest ∧
      ((¬ x.WellFormed ∧ t.errcode = 0x8#4) ∨
        ((∃ v, x = .write 0x08#8 v 0xF#4) ∧ 0x1#4 ≤ t.errcode ∧ t.errcode ≤ 0x7#4))

/-- R247 over all commands and all steps. -/
def Obligations.PendingCommandRefusesEveryOtherAndEndsOnlyByCompletionOrReset : Prop :=
  ∀ (s : State) (p : Pending), s.pend = some p →
    (∀ i : Instr, exec i s = .next (raiseError .busy s)) ∧
    (∀ t : State, step s = .next t →
      t.pend = some p ∨ (s.wait = 0 ∧ resetNext s = false ∧ t = complete s) ∨ ∃ rest, s.script = .reset :: rest)

/-- The table of R213, row by row; a state error is raised whatever the masks and BLKCNT are. -/
def Obligations.SequencerTableDecidesLegality : Prop :=
  ∀ (i : Instr) (s : State), s.pend = none →
    let refusedInIdle := i = .encBlock ∨ i = .decBlock
    let onlyInMessage := i = .msgNext
    let neverInMessage :=
      i = .expandKey ∨ i = .encBlock ∨ i = .decBlock ∨ i = .msgStartEnc ∨ i = .msgStartDec ∨ i = .sbox ∨ i = .invSbox ∨
        i = .gfInv ∨ i = .gfMul
    let inMessage := s.fsm = .msgEnc ∨ s.fsm = .msgDec
    (s.fsm = .idle → refusedInIdle → exec i s = .next (raiseError .noKey s)) ∧
    (¬ inMessage → onlyInMessage → exec i s = .next (raiseError .sequence s)) ∧
    (inMessage → neverInMessage → exec i s = .next (raiseError .sequence s)) ∧
    (¬ (s.fsm = .idle ∧ refusedInIdle) → ¬ (¬ inMessage ∧ onlyInMessage) → ¬ (inMessage ∧ neverInMessage) →
      s.keyWr = 0b1111#4 → s.dinWr = 0b1111#4 → s.blkcnt ≠ 0#16 →
      ∃ (t : State) (p : Pending), exec i s = .next t ∧ t.pend = some p ∧ p.op = i)

/-- The three operand checks of R214. -/
def Obligations.LengthChecksRefuseMissingOperands : Prop :=
  ∀ s : State, s.pend = none →
    (s.fsm = .idle ∨ s.fsm = .ready → s.keyWr ≠ 0b1111#4 →
      exec .expandKey s = .next (raiseError .keyLength s) ∧ exec .msgStartEnc s = .next (raiseError .keyLength s) ∧
        exec .msgStartDec s = .next (raiseError .keyLength s)) ∧
    (s.fsm = .ready → s.dinWr ≠ 0b1111#4 →
      exec .encBlock s = .next (raiseError .blockLength s) ∧ exec .decBlock s = .next (raiseError .blockLength s)) ∧
    (s.fsm = .msgEnc ∨ s.fsm = .msgDec → s.dinWr ≠ 0b1111#4 → exec .msgNext s = .next (raiseError .blockLength s)) ∧
    (s.fsm = .idle ∨ s.fsm = .ready → s.dinWr ≠ 0b1111#4 →
      exec .sbox s = .next (raiseError .blockLength s) ∧ exec .invSbox s = .next (raiseError .blockLength s) ∧
        exec .gfInv s = .next (raiseError .blockLength s) ∧ exec .gfMul s = .next (raiseError .blockLength s)) ∧
    (s.fsm = .idle ∨ s.fsm = .ready → s.keyWr = 0b1111#4 → s.blkcnt = 0#16 →
      exec .msgStartEnc s = .next (raiseError .msgLength s) ∧ exec .msgStartDec s = .next (raiseError .msgLength s))

/-- R220. The latency drawn at acceptance is the model's own bookkeeping (assumption log 2). -/
def Obligations.NopRunsByItsRule : Prop :=
  encode .nop = 0x00000000#32 ∧
    (∀ s : State, s.pend = none →
      exec .nop s =
        .next
          { s with
            pend := some ⟨.nop, Block.zero, Block.zero, 0x00#8⟩
            done := false
            wait := Config.latency s.accepts .nop
            accepts := s.accepts + 1 }) ∧
    (∀ s : State, s.pend ≠ none → exec .nop s = .next (raiseError .busy s)) ∧
    (∀ (s : State) (p : Pending), DueWith .nop p s →
      step s =
        .next
          { s with
            pend := none
            done := true
            wait := 0 }) ∧
    (∀ t : State, exec .nop State.reset = .next t → statusWord (complete t) = 0x00000002#32)

/-- R221: acceptance, refusals and completion, each with the whole next state. -/
def Obligations.ExpandKeyRunsByItsRule : Prop :=
  encode .expandKey = 0x00000001#32 ∧
    (∀ s : State, s.pend = none → (s.fsm = .idle ∨ s.fsm = .ready) → s.keyWr = 0b1111#4 →
      exec .expandKey s =
        .next
          { s with
            pend := some ⟨.expandKey, blockOf s.key, Block.zero, 0x00#8⟩
            done := false
            wait := Config.latency s.accepts .expandKey
            accepts := s.accepts + 1 }) ∧
    (∀ s : State, s.pend ≠ none → exec .expandKey s = .next (raiseError .busy s)) ∧
    (∀ s : State, s.pend = none → (s.fsm = .msgEnc ∨ s.fsm = .msgDec) →
      exec .expandKey s = .next (raiseError .sequence s)) ∧
    (∀ s : State, s.pend = none → (s.fsm = .idle ∨ s.fsm = .ready) → s.keyWr ≠ 0b1111#4 →
      exec .expandKey s = .next (raiseError .keyLength s)) ∧
    (∀ (s : State) (p : Pending), DueWith .expandKey p s →
      step s =
        .next
          { s with
            rk := keyExpansion p.lkey
            fsm := .ready
            pend := none
            done := true
            wait := 0 }) ∧
    (∀ (s : State) (p : Pending), DueWith .expandKey p s →
      p.lkey = Block.zero →
      ∃ t : State, step s = .next t ∧ t.rk.k1 = blockOf ⟨0x62636363#32, 0x62636363#32, 0x62636363#32, 0x62636363#32⟩)

/-- R222: acceptance, refusals and completion, each with the whole next state. -/
def Obligations.EncBlockRunsByItsRule : Prop :=
  encode .encBlock = 0x00000002#32 ∧
    (∀ s : State, s.pend = none → s.fsm = .ready → s.dinWr = 0b1111#4 →
      exec .encBlock s =
        .next
          { s with
            pend := some ⟨.encBlock, Block.zero, blockOf s.din, 0x00#8⟩
            done := false
            dinWr := 0b0000#4
            doutValid := false
            wait := Config.latency s.accepts .encBlock
            accepts := s.accepts + 1 }) ∧
    (∀ s : State, s.pend ≠ none → exec .encBlock s = .next (raiseError .busy s)) ∧
    (∀ s : State, s.pend = none → s.fsm = .idle →
      exec .encBlock s = .next (raiseError .noKey s)) ∧
    (∀ s : State, s.pend = none → (s.fsm = .msgEnc ∨ s.fsm = .msgDec) →
      exec .encBlock s = .next (raiseError .sequence s)) ∧
    (∀ s : State, s.pend = none → s.fsm = .ready → s.dinWr ≠ 0b1111#4 →
      exec .encBlock s = .next (raiseError .blockLength s)) ∧
    (∀ (s : State) (p : Pending), DueWith .encBlock p s →
      step s =
        .next
          { s with
            dout := wordsOf (cipher p.ldin s.rk)
            doutValid := true
            pend := none
            done := true
            wait := 0 }) ∧
    (∀ (s : State) (p : Pending), DueWith .encBlock p s →
      s.rk = keyExpansion Block.zero → p.ldin = Block.zero →
      ∃ t : State, step s = .next t ∧ t.dout = ⟨0x66e94bd4#32, 0xef8a2c3b#32, 0x884cfa59#32, 0xca342b2e#32⟩)

/-- R223: acceptance, refusals and completion, each with the whole next state. -/
def Obligations.DecBlockRunsByItsRule : Prop :=
  encode .decBlock = 0x00000003#32 ∧
    (∀ s : State, s.pend = none → s.fsm = .ready → s.dinWr = 0b1111#4 →
      exec .decBlock s =
        .next
          { s with
            pend := some ⟨.decBlock, Block.zero, blockOf s.din, 0x00#8⟩
            done := false
            dinWr := 0b0000#4
            doutValid := false
            wait := Config.latency s.accepts .decBlock
            accepts := s.accepts + 1 }) ∧
    (∀ s : State, s.pend ≠ none → exec .decBlock s = .next (raiseError .busy s)) ∧
    (∀ s : State, s.pend = none → s.fsm = .idle →
      exec .decBlock s = .next (raiseError .noKey s)) ∧
    (∀ s : State, s.pend = none → (s.fsm = .msgEnc ∨ s.fsm = .msgDec) →
      exec .decBlock s = .next (raiseError .sequence s)) ∧
    (∀ s : State, s.pend = none → s.fsm = .ready → s.dinWr ≠ 0b1111#4 →
      exec .decBlock s = .next (raiseError .blockLength s)) ∧
    (∀ (s : State) (p : Pending), DueWith .decBlock p s →
      step s =
        .next
          { s with
            dout := wordsOf (invCipher p.ldin s.rk)
            doutValid := true
            pend := none
            done := true
            wait := 0 }) ∧
    (∀ (s : State) (p : Pending), DueWith .decBlock p s →
      s.rk = keyExpansion Block.zero → p.ldin = blockOf ⟨0x66e94bd4#32, 0xef8a2c3b#32, 0x884cfa59#32, 0xca342b2e#32⟩ →
      ∃ t : State, step s = .next t ∧ t.dout = ⟨0x00000000#32, 0x00000000#32, 0x00000000#32, 0x00000000#32⟩)

/-- R224: acceptance, refusals and completion, each with the whole next state. -/
def Obligations.MsgStartEncRunsByItsRule : Prop :=
  encode .msgStartEnc = 0x00000004#32 ∧
    (∀ s : State, s.pend = none → (s.fsm = .idle ∨ s.fsm = .ready) → s.keyWr = 0b1111#4 → s.blkcnt ≠ 0#16 →
      exec .msgStartEnc s =
        .next
          { s with
            pend := some ⟨.msgStartEnc, blockOf s.key, Block.zero, 0x00#8⟩
            done := false
            msgCnt := s.blkcnt
            key := Quad.const 0x00000000#32
            keyWr := 0b0000#4
            wait := Config.latency s.accepts .msgStartEnc
            accepts := s.accepts + 1 }) ∧
    (∀ s : State, s.pend ≠ none → exec .msgStartEnc s = .next (raiseError .busy s)) ∧
    (∀ s : State, s.pend = none → (s.fsm = .msgEnc ∨ s.fsm = .msgDec) →
      exec .msgStartEnc s = .next (raiseError .sequence s)) ∧
    (∀ s : State, s.pend = none → (s.fsm = .idle ∨ s.fsm = .ready) → s.keyWr ≠ 0b1111#4 →
      exec .msgStartEnc s = .next (raiseError .keyLength s)) ∧
    (∀ s : State, s.pend = none → (s.fsm = .idle ∨ s.fsm = .ready) → s.keyWr = 0b1111#4 → s.blkcnt = 0#16 →
      exec .msgStartEnc s = .next (raiseError .msgLength s)) ∧
    (∀ (s : State) (p : Pending), DueWith .msgStartEnc p s →
      step s =
        .next
          { s with
            rk := keyExpansion p.lkey
            fsm := .msgEnc
            blkidx := 0#16
            msgDone := false
            pend := none
            done := true
            wait := 0 })

/-- R225: acceptance, refusals and completion, each with the whole next state. -/
def Obligations.MsgStartDecRunsByItsRule : Prop :=
  encode .msgStartDec = 0x00000005#32 ∧
    (∀ s : State, s.pend = none → (s.fsm = .idle ∨ s.fsm = .ready) → s.keyWr = 0b1111#4 → s.blkcnt ≠ 0#16 →
      exec .msgStartDec s =
        .next
          { s with
            pend := some ⟨.msgStartDec, blockOf s.key, Block.zero, 0x00#8⟩
            done := false
            msgCnt := s.blkcnt
            key := Quad.const 0x00000000#32
            keyWr := 0b0000#4
            wait := Config.latency s.accepts .msgStartDec
            accepts := s.accepts + 1 }) ∧
    (∀ s : State, s.pend ≠ none → exec .msgStartDec s = .next (raiseError .busy s)) ∧
    (∀ s : State, s.pend = none → (s.fsm = .msgEnc ∨ s.fsm = .msgDec) →
      exec .msgStartDec s = .next (raiseError .sequence s)) ∧
    (∀ s : State, s.pend = none → (s.fsm = .idle ∨ s.fsm = .ready) → s.keyWr ≠ 0b1111#4 →
      exec .msgStartDec s = .next (raiseError .keyLength s)) ∧
    (∀ s : State, s.pend = none → (s.fsm = .idle ∨ s.fsm = .ready) → s.keyWr = 0b1111#4 → s.blkcnt = 0#16 →
      exec .msgStartDec s = .next (raiseError .msgLength s)) ∧
    (∀ (s : State) (p : Pending), DueWith .msgStartDec p s →
      step s =
        .next
          { s with
            rk := keyExpansion p.lkey
            fsm := .msgDec
            blkidx := 0#16
            msgDone := false
            pend := none
            done := true
            wait := 0 })

/-- R226: acceptance, refusals and completion, each with the whole next state. -/
def Obligations.MsgNextRunsByItsRule : Prop :=
  encode .msgNext = 0x00000006#32 ∧
    (∀ s : State, s.pend = none → (s.fsm = .msgEnc ∨ s.fsm = .msgDec) → s.dinWr = 0b1111#4 →
      exec .msgNext s =
        .next
          { s with
            pend := some ⟨.msgNext, Block.zero, blockOf s.din, 0x00#8⟩
            done := false
            dinWr := 0b0000#4
            doutValid := false
            wait := Config.latency s.accepts .msgNext
            accepts := s.accepts + 1 }) ∧
    (∀ s : State, s.pend ≠ none → exec .msgNext s = .next (raiseError .busy s)) ∧
    (∀ s : State, s.pend = none → (s.fsm = .idle ∨ s.fsm = .ready) →
      exec .msgNext s = .next (raiseError .sequence s)) ∧
    (∀ s : State, s.pend = none → (s.fsm = .msgEnc ∨ s.fsm = .msgDec) → s.dinWr ≠ 0b1111#4 →
      exec .msgNext s = .next (raiseError .blockLength s)) ∧
    (∀ (s : State) (p : Pending), DueWith .msgNext p s →
      let out := if s.fsm = .msgEnc then cipher p.ldin s.rk else invCipher p.ldin s.rk
      (s.blkidx + 1#16 ≠ s.msgCnt →
        step s =
          .next
            { s with
              dout := wordsOf out, doutValid := true, blkidx := s.blkidx + 1#16, pend := none, done := true, wait := 0 }) ∧
      (s.blkidx + 1#16 = s.msgCnt →
        step s =
          .next
            { s with
              dout := wordsOf out, doutValid := true, blkidx := s.blkidx + 1#16, rk := Schedule.zero, fsm := .idle,
              msgDone := true, pend := none, done := true, wait := 0 })) ∧
    (∀ (s : State) (p : Pending), DueWith .msgNext p s →
      s.fsm = .msgEnc → s.rk = keyExpansion (blockOf ⟨0x2b7e1516#32, 0x28aed2a6#32, 0xabf71588#32, 0x09cf4f3c#32⟩) → p.ldin = blockOf ⟨0x6bc1bee2#32, 0x2e409f96#32, 0xe93d7e11#32, 0x7393172a#32⟩ →
      ∃ t : State, step s = .next t ∧ t.dout = ⟨0x3ad77bb4#32, 0x0d7a3660#32, 0xa89ecaf3#32, 0x2466ef97#32⟩)

/-- R227: acceptance, refusal and completion, each with the whole next state. -/
def Obligations.MsgAbortRunsByItsRule : Prop :=
  encode .msgAbort = 0x00000007#32 ∧
    (∀ s : State, s.pend = none →
      exec .msgAbort s =
        .next
          { s with
            pend := some ⟨.msgAbort, Block.zero, Block.zero, 0x00#8⟩
            done := false
            wait := Config.latency s.accepts .msgAbort
            accepts := s.accepts + 1 }) ∧
    (∀ s : State, s.pend ≠ none → exec .msgAbort s = .next (raiseError .busy s)) ∧
    (∀ (s : State) (p : Pending), DueWith .msgAbort p s →
      (s.fsm = .msgEnc ∨ s.fsm = .msgDec →
        step s = .next { s with rk := Schedule.zero, fsm := .idle, pend := none, done := true, wait := 0 }) ∧
      (s.fsm = .idle ∨ s.fsm = .ready → step s = .next { s with pend := none, done := true, wait := 0 }))

/-- R228: acceptance, refusals and completion, each with the whole next state; byte j of the output block for every j. -/
def Obligations.SboxRunsByItsRule : Prop :=
  encode .sbox = 0x00000008#32 ∧
    (∀ s : State, s.pend = none → (s.fsm = .idle ∨ s.fsm = .ready) → s.dinWr = 0b1111#4 →
      exec .sbox s =
        .next
          { s with
            pend := some ⟨.sbox, Block.zero, blockOf s.din, 0x00#8⟩
            done := false
            dinWr := 0b0000#4
            doutValid := false
            wait := Config.latency s.accepts .sbox
            accepts := s.accepts + 1 }) ∧
    (∀ s : State, s.pend ≠ none → exec .sbox s = .next (raiseError .busy s)) ∧
    (∀ s : State, s.pend = none → (s.fsm = .msgEnc ∨ s.fsm = .msgDec) →
      exec .sbox s = .next (raiseError .sequence s)) ∧
    (∀ s : State, s.pend = none → (s.fsm = .idle ∨ s.fsm = .ready) → s.dinWr ≠ 0b1111#4 →
      exec .sbox s = .next (raiseError .blockLength s)) ∧
    (∀ (s : State) (p : Pending), DueWith .sbox p s →
      ∃ out : Block, (∀ j : Fin 16, out.byte j = sboxByte (p.ldin.byte j)) ∧
        step s = .next { s with dout := wordsOf out, doutValid := true, pend := none, done := true, wait := 0 }) ∧
    (∀ (s : State) (p : Pending), DueWith .sbox p s →
      p.ldin = blockOf ⟨0x00010203#32, 0x04050607#32, 0x08090a0b#32, 0x0c0d0e0f#32⟩ →
      ∃ t : State, step s = .next t ∧ t.dout = ⟨0x637c777b#32, 0xf26b6fc5#32, 0x3001672b#32, 0xfed7ab76#32⟩)

/-- R229: acceptance, refusals and completion, each with the whole next state; byte j of the output block for every j. -/
def Obligations.InvSboxRunsByItsRule : Prop :=
  encode .invSbox = 0x00000009#32 ∧
    (∀ s : State, s.pend = none → (s.fsm = .idle ∨ s.fsm = .ready) → s.dinWr = 0b1111#4 →
      exec .invSbox s =
        .next
          { s with
            pend := some ⟨.invSbox, Block.zero, blockOf s.din, 0x00#8⟩
            done := false
            dinWr := 0b0000#4
            doutValid := false
            wait := Config.latency s.accepts .invSbox
            accepts := s.accepts + 1 }) ∧
    (∀ s : State, s.pend ≠ none → exec .invSbox s = .next (raiseError .busy s)) ∧
    (∀ s : State, s.pend = none → (s.fsm = .msgEnc ∨ s.fsm = .msgDec) →
      exec .invSbox s = .next (raiseError .sequence s)) ∧
    (∀ s : State, s.pend = none → (s.fsm = .idle ∨ s.fsm = .ready) → s.dinWr ≠ 0b1111#4 →
      exec .invSbox s = .next (raiseError .blockLength s)) ∧
    (∀ (s : State) (p : Pending), DueWith .invSbox p s →
      ∃ out : Block, (∀ j : Fin 16, out.byte j = invSboxByte (p.ldin.byte j)) ∧
        step s = .next { s with dout := wordsOf out, doutValid := true, pend := none, done := true, wait := 0 }) ∧
    (∀ (s : State) (p : Pending), DueWith .invSbox p s →
      p.ldin = blockOf ⟨0x637c777b#32, 0xf26b6fc5#32, 0x3001672b#32, 0xfed7ab76#32⟩ →
      ∃ t : State, step s = .next t ∧ t.dout = ⟨0x00010203#32, 0x04050607#32, 0x08090a0b#32, 0x0c0d0e0f#32⟩)

/-- R230: acceptance, refusals and completion, each with the whole next state; byte j of the output block for every j. -/
def Obligations.GfInvRunsByItsRule : Prop :=
  encode .gfInv = 0x0000000A#32 ∧
    (∀ s : State, s.pend = none → (s.fsm = .idle ∨ s.fsm = .ready) → s.dinWr = 0b1111#4 →
      exec .gfInv s =
        .next
          { s with
            pend := some ⟨.gfInv, Block.zero, blockOf s.din, 0x00#8⟩
            done := false
            dinWr := 0b0000#4
            doutValid := false
            wait := Config.latency s.accepts .gfInv
            accepts := s.accepts + 1 }) ∧
    (∀ s : State, s.pend ≠ none → exec .gfInv s = .next (raiseError .busy s)) ∧
    (∀ s : State, s.pend = none → (s.fsm = .msgEnc ∨ s.fsm = .msgDec) →
      exec .gfInv s = .next (raiseError .sequence s)) ∧
    (∀ s : State, s.pend = none → (s.fsm = .idle ∨ s.fsm = .ready) → s.dinWr ≠ 0b1111#4 →
      exec .gfInv s = .next (raiseError .blockLength s)) ∧
    (∀ (s : State) (p : Pending), DueWith .gfInv p s →
      ∃ out : Block, (∀ j : Fin 16, out.byte j = ginv (p.ldin.byte j)) ∧
        (∀ j : Fin 16, p.ldin.byte j = 0x00#8 → out.byte j = 0x00#8) ∧
        (∀ j : Fin 16, p.ldin.byte j = 0x01#8 → out.byte j = 0x01#8) ∧
        step s = .next { s with dout := wordsOf out, doutValid := true, pend := none, done := true, wait := 0 }) ∧
    (∀ (s : State) (p : Pending), DueWith .gfInv p s →
      p.ldin = blockOf ⟨0x00010203#32, 0x04050607#32, 0x08090a0b#32, 0x0c0d0e0f#32⟩ →
      ∃ t : State, step s = .next t ∧ t.dout = ⟨0x00018df6#32, 0xcb527bd1#32, 0xe84f29c0#32, 0xb0e1e5c7#32⟩)

/-- R231: acceptance, refusals and completion, each with the whole next state; byte j of the output block for every j. -/
def Obligations.GfMulRunsByItsRule : Prop :=
  encode .gfMul = 0x0000000B#32 ∧
    (∀ s : State, s.pend = none → (s.fsm = .idle ∨ s.fsm = .ready) → s.dinWr = 0b1111#4 →
      exec .gfMul s =
        .next
          { s with
            pend := some ⟨.gfMul, Block.zero, blockOf s.din, s.gfb⟩
            done := false
            dinWr := 0b0000#4
            doutValid := false
            wait := Config.latency s.accepts .gfMul
            accepts := s.accepts + 1 }) ∧
    (∀ s : State, s.pend ≠ none → exec .gfMul s = .next (raiseError .busy s)) ∧
    (∀ s : State, s.pend = none → (s.fsm = .msgEnc ∨ s.fsm = .msgDec) →
      exec .gfMul s = .next (raiseError .sequence s)) ∧
    (∀ s : State, s.pend = none → (s.fsm = .idle ∨ s.fsm = .ready) → s.dinWr ≠ 0b1111#4 →
      exec .gfMul s = .next (raiseError .blockLength s)) ∧
    (∀ (s : State) (p : Pending), DueWith .gfMul p s →
      ∃ out : Block, (∀ j : Fin 16, out.byte j = gmul (p.ldin.byte j) p.lgfb) ∧
        (p.lgfb = 0x00#8 → out = Block.zero) ∧ (p.lgfb = 0x01#8 → out = p.ldin) ∧
        step s = .next { s with dout := wordsOf out, doutValid := true, pend := none, done := true, wait := 0 }) ∧
    (∀ (s : State) (p : Pending), DueWith .gfMul p s →
      p.ldin = blockOf ⟨0x57575757#32, 0x800102ff#32, 0x53ca8df6#32, 0x000102fe#32⟩ → p.lgfb = 0x83#8 →
      ∃ t : State, step s = .next t ∧ t.dout = ⟨0xc1c1c1c1#32, 0x01831d7f#32, 0xfbe5cc88#32, 0x00831dfc#32⟩)

/-- R232: acceptance, refusal and completion, each with the whole next state. -/
def Obligations.ZeroizeRunsByItsRule : Prop :=
  encode .zeroize = 0x0000000C#32 ∧
    (∀ s : State, s.pend = none →
      exec .zeroize s =
        .next
          { s with
            pend := some ⟨.zeroize, Block.zero, Block.zero, 0x00#8⟩
            done := false
            key := Quad.const 0x00000000#32
            din := Quad.const 0x00000000#32
            keyWr := 0b0000#4
            dinWr := 0b0000#4
            doutValid := false
            blkcnt := 0#16
            gfb := 0x00#8
            wait := Config.latency s.accepts .zeroize
            accepts := s.accepts + 1 }) ∧
    (∀ s : State, s.pend ≠ none → exec .zeroize s = .next (raiseError .busy s)) ∧
    (∀ (s : State) (p : Pending), DueWith .zeroize p s →
      step s =
        .next
          { s with
            dout := Quad.const 0x00000000#32
            rk := Schedule.zero
            fsm := .idle
            blkidx := 0#16
            msgCnt := 0#16
            msgDone := false
            pend := none
            done := true
            wait := 0 }) ∧
    (∀ s t : State, s.pend = none → exec .zeroize s = .next t →
      statusWord (complete t) = 0x00000002#32 ||| (statusWord s &&& 0x000F0004#32))

/-- How exec reaches a run: what the step adds around exec is the model's script and waiting (assumption logs 1, 2, 5). The second
clause's order, a due completion before the next event and after a reset, is the model's choice (assumption log 8). -/
def Obligations.StepTakesTheNextCommandWord : Prop :=
  (∀ (s : State) (v : Word) (i : Instr) (rest : List Event),
      s.script = .access (.write 0x08#8 v 0xF#4) :: rest → decode v = .ok i → completionDue s = false →
      step s = exec i { s with script := rest, wait := s.wait - 1, resp := some (.writeDone false) }) ∧
    (∀ s : State, completionDue s = true → resetNext s = false → step s = .next (complete s)) ∧
    (∀ (s : State) (w : Nat) (i : Instr), decode (BitVec.ofNat 32 (w % 2 ^ 32)) = .ok i →
      step (s.withFetchWord 32 w) = exec i { s with wait := s.wait - 1, resp := some (.writeDone false) })

/-- Every transaction, word, completion and reset has an effect in the spec, so nothing stops (Fault has no constructor). -/
def Obligations.EveryStepAnswersANextState : Prop :=
  ∀ s : State, ∃ t : State, step s = .next t

/-- The table of R49, row by row. -/
def Obligations.ResetValuesAreTheTabledOnes : Prop :=
  State.reset.irqEn = false ∧ State.reset.done = false ∧ State.reset.err = false ∧ State.reset.msgDone = false ∧
    State.reset.doutValid = false ∧ State.reset.errcode = 0x0#4 ∧ State.reset.keyWr = 0b0000#4 ∧ State.reset.dinWr = 0b0000#4 ∧
    (∀ j : Fin 4, State.reset.key.get j = 0x00000000#32 ∧ State.reset.din.get j = 0x00000000#32 ∧
      State.reset.dout.get j = 0x00000000#32) ∧
    State.reset.blkcnt = 0#16 ∧ State.reset.blkidx = 0#16 ∧ State.reset.msgCnt = 0#16 ∧ State.reset.gfb = 0x00#8 ∧
    State.reset.fsm = .idle ∧ (∀ (r : Fin 11) (j : Fin 16), (State.reset.rk.get r).byte j = 0x00#8) ∧
    State.reset.pend = none ∧ statusWord State.reset = 0x00000000#32 ∧ irq State.reset = false

/-- R340 and R341; that the script and the count are kept is the model's choice (assumption log 4). -/
def Obligations.ResetStepSetsEveryElement : Prop :=
  ∀ (s : State) (rest : List Event), s.script = .reset :: rest →
    ∃ t : State, step s = .next t ∧ t = { State.reset with script := rest, accepts := s.accepts } ∧ t.pend = none ∧
      t.done = false ∧ statusWord t = 0x00000000#32 ∧ irq t = false ∧ readReg .id t = 0x41455331#32

/-- The base case of the invariant. -/
def Obligations.InvariantHoldsAfterReset : Prop :=
  Inv State.reset

/-- The whole-machine promises of R40, R155, R241, R302, R27, R30 and R41, together inductive. -/
def Obligations.EveryStepKeepsTheInvariant : Prop :=
  ∀ s t : State, Inv s → step s = .next t → Inv t

/-- The table of R240; the invariant rules out completions in sequencer states where acceptance refuses them. -/
def Obligations.SequencerMovesOnlyByItsTable : Prop :=
  ∀ s t : State, Inv s → step s = .next t →
    (∀ p : Pending, s.pend = some p → s.wait = 0 → resetNext s = false →
      t.fsm =
        (match p.op with
        | .expandKey => .ready
        | .msgStartEnc => .msgEnc
        | .msgStartDec => .msgDec
        | .msgNext => if s.blkidx + 1#16 = s.msgCnt then .idle else s.fsm
        | .msgAbort => if s.fsm = .msgEnc ∨ s.fsm = .msgDec then .idle else s.fsm
        | .zeroize => .idle
        | .nop => s.fsm
        | .encBlock => s.fsm
        | .decBlock => s.fsm
        | .sbox => s.fsm
        | .invSbox => s.fsm
        | .gfInv => s.fsm
        | .gfMul => s.fsm) ∧
      (p.op = .expandKey ∨ p.op = .msgStartEnc ∨ p.op = .msgStartDec → s.fsm = .idle ∨ s.fsm = .ready) ∧
      (p.op = .msgNext → s.fsm = .msgEnc ∨ s.fsm = .msgDec)) ∧
    (resetNext s = true → t.fsm = .idle) ∧
    (completionDue s = false → resetNext s = false → t.fsm = s.fsm) ∧
    (t.fsm = .idle → s.fsm ≠ .idle → t.rk = Schedule.zero)

/-- R35 over every step. -/
def Obligations.OutputChangesOnlyAtCompletionOrReset : Prop :=
  (∀ s t : State, step s = .next t → t.dout ≠ s.dout →
      (∃ rest, s.script = .reset :: rest) ∨
      (completionDue s = true ∧
        ∃ p : Pending, s.pend = some p ∧
          (p.op = .encBlock ∨ p.op = .decBlock ∨ p.op = .msgNext ∨ p.op = .sbox ∨ p.op = .invSbox ∨ p.op = .gfInv ∨
            p.op = .gfMul ∨ p.op = .zeroize))) ∧
    (∀ (s : State) (j : Fin 4) (v : Word),
      access (.write (0x30#8 + 4#8 * BitVec.ofNat 8 j.val) v 0xF#4) s = .next { s with resp := some (.writeDone false) } ∧
      access (.read (0x30#8 + 4#8 * BitVec.ofNat 8 j.val)) s = .next { s with resp := some (.readData (s.dout.get j) false) })

/-- The writing events of R40, over every step. -/
def Obligations.RoundKeysChangeOnlyByExpansionOrZeroizing : Prop :=
  ∀ s t : State, step s = .next t →
    t.rk = s.rk ∨
    (t.rk = Schedule.zero ∧ ∃ rest, s.script = .reset :: rest) ∨
    (completionDue s = true ∧
      ∃ p : Pending, s.pend = some p ∧
        (((p.op = .expandKey ∨ p.op = .msgStartEnc ∨ p.op = .msgStartDec) ∧ t.rk = keyExpansion p.lkey) ∨
          (t.rk = Schedule.zero ∧
            (p.op = .zeroize ∨ (p.op = .msgAbort ∧ (s.fsm = .msgEnc ∨ s.fsm = .msgDec)) ∨
              (p.op = .msgNext ∧ s.blkidx + 1#16 = s.msgCnt)))))

/-- The writing events of R37, R38 and R45, over every step. -/
def Obligations.CountersChangeOnlyAtTheirEvents : Prop :=
  ∀ s t : State, step s = .next t →
    (t.msgCnt ≠ s.msgCnt →
      (t.msgCnt = 0#16 ∧ ∃ rest, s.script = .reset :: rest) ∨
      (t.msgCnt = 0#16 ∧ completionDue s = true ∧ ∃ p : Pending, s.pend = some p ∧ p.op = .zeroize) ∨
      (t.msgCnt = s.blkcnt ∧ s.pend = none ∧
        ∃ p : Pending, t.pend = some p ∧ (p.op = .msgStartEnc ∨ p.op = .msgStartDec))) ∧
    (t.blkidx ≠ s.blkidx →
      (t.blkidx = 0#16 ∧ ∃ rest, s.script = .reset :: rest) ∨
      (completionDue s = true ∧
        ∃ p : Pending, s.pend = some p ∧
          ((t.blkidx = 0#16 ∧ (p.op = .msgStartEnc ∨ p.op = .msgStartDec ∨ p.op = .zeroize)) ∨
            (t.blkidx = s.blkidx + 1#16 ∧ p.op = .msgNext)))) ∧
    (t.blkcnt ≠ s.blkcnt →
      (∃ rest, s.script = .reset :: rest) ∨
      (∃ v rest, s.script = .access (.write 0x40#8 v 0xF#4) :: rest ∧ t.blkcnt = v.extractLsb' 0 16) ∨
      (t.blkcnt = 0#16 ∧ s.pend = none ∧ ∃ p : Pending, t.pend = some p ∧ p.op = .zeroize))

/-- R246 (every pending command completes) and R348 (operand writes never change it), for every script without a reset. -/
def Obligations.PendingCommandCompletesFromItsLatchedOperands : Prop :=
  ∀ (s : State) (p : Pending), s.pend = some p → (∀ e ∈ s.script.take (s.wait + 1), e ≠ .reset) →
    ∃ t : State, Host.Core.run Sys2Proof.core (s.wait + 1) s = .next t ∧ t.pend = none ∧ t.done = true ∧
      t.dout = (ownCompletion p.op p s).dout ∧ t.doutValid = (ownCompletion p.op p s).doutValid ∧
      t.rk = (ownCompletion p.op p s).rk ∧ t.fsm = (ownCompletion p.op p s).fsm ∧
      t.blkidx = (ownCompletion p.op p s).blkidx ∧ t.msgCnt = (ownCompletion p.op p s).msgCnt

/-- R244 (nothing of the key or the schedule can be read by the host) as noninterference; what is left out is the cipher's own output. -/
def Obligations.NoTransactionTellsTheKey : Prop :=
  ∀ s t s' t' : State, SameButSecrets s t → ¬ cipherDue s → step s = .next s' → step t = .next t' →
    SameButSecrets s' t' ∧ s'.resp = t'.resp ∧ statusWord s' = statusWord t' ∧ irq s' = irq t'

/-- R354's independence of data, in the model's form (assumption log 2). -/
def Obligations.LatencyDependsOnNoData : Prop :=
  ∀ (i : Instr) (s t s' t' : State), s.accepts = t.accepts → s.pend = none → t.pend = none →
    exec i s = .next s' → exec i t = .next t' → s'.pend ≠ none → t'.pend ≠ none → s'.wait = t'.wait

/-- R43, and the rises and falls of R309 that follow. -/
def Obligations.IrqFollowsDoneAndErr : Prop :=
  (∀ s : State, irq s = (s.irqEn && (s.done || s.err))) ∧
    (∀ (s : State) (p : Pending), s.pend = some p → s.irqEn = true → irq (complete s) = true) ∧
    (∀ (s : State) (c : ErrCode), s.irqEn = true → irq (raiseError c s) = true) ∧
    (∀ s : State, s.irqEn = false → irq s = false) ∧
    (∀ s : State, irq (clearStatus 0x00000086#32 s) = false)

/-- R7, R82, R71, R313 and R342, for every BASE. -/
def Obligations.WindowAndPortMapOntoTransactions : Prop :=
  Config.base % 256 = 0 ∧
    (∀ off : Offset, windowOffset (busAddress off) = some off) ∧
    (∀ a : Nat, a < Config.base ∨ Config.base + 256 ≤ a → windowOffset a = none) ∧
    (∀ (p : PortInputs) (x : BitVec 3), eventOf { p with pprot := x } = eventOf p) ∧
    (∀ p : PortInputs, p.rstN = false → eventOf p = .reset) ∧
    (∀ p : PortInputs, p.rstN = true → ¬ (p.psel = true ∧ p.penable = true) → eventOf p = .idle) ∧
    (∀ p : PortInputs, p.rstN = true → p.psel = true → p.penable = true →
      (p.pwrite = true → eventOf p = .access (.write p.paddr p.pwdata p.pstrb)) ∧
      (p.pwrite = false → eventOf p = .access (.read p.paddr)))

/-- The laws of R124. -/
def Obligations.GmulIsFieldMultiplication : Prop :=
  ∀ a b c : Byte,
    gmul a 0x00#8 = 0x00#8 ∧ gmul 0x00#8 a = 0x00#8 ∧ gmul a 0x01#8 = a ∧ gmul a b = gmul b a ∧
    gmul a (gmul b c) = gmul (gmul a b) c ∧ gmul a (b ^^^ c) = gmul a b ^^^ gmul a c ∧
    (gmul a b = 0x00#8 → a = 0x00#8 ∨ b = 0x00#8)

/-- R126. -/
def Obligations.GinvIsTheMultiplicativeInverse : Prop :=
  (∀ a y : Byte, a ≠ 0x00#8 → (gmul a y = 0x01#8 ↔ y = ginv a)) ∧
    (∀ a : Byte, ginv a = (fun y => gmul y a)^[254] 0x01#8) ∧
    ginv 0x00#8 = 0x00#8

/-- R125, line by line. -/
def Obligations.ConstantMultiplesReduceToXtime : Prop :=
  ∀ a : Byte,
    gmul a 0x01#8 = a ∧
    gmul a 0x02#8 = xtime a ∧
    gmul a 0x03#8 = xtime a ^^^ a ∧
    gmul a 0x09#8 = xtime (xtime (xtime a)) ^^^ a ∧
    gmul a 0x0B#8 = xtime (xtime (xtime a)) ^^^ xtime a ^^^ a ∧
    gmul a 0x0D#8 = xtime (xtime (xtime a)) ^^^ xtime (xtime a) ^^^ a ∧
    gmul a 0x0E#8 = xtime (xtime (xtime a)) ^^^ xtime (xtime a) ^^^ xtime a

/-- R130, R131 and R132 over all 256 bytes. -/
def Obligations.SboxIsAPermutationWithoutFixedPoints : Prop :=
  ∀ x : Byte,
    invAffine (affine x) = x ∧ invSboxByte (sboxByte x) = x ∧ sboxByte (invSboxByte x) = x ∧ sboxByte x ≠ x ∧
    sboxByte x ≠ x ^^^ 0xFF#8

/-- The pseudocode of R154, with R150 and R155. -/
def Obligations.KeyExpansionFollowsItsRecurrence : Prop :=
  ∀ key : Block,
    (scheduleWords key).length = 44 ∧
    (∀ j : Fin 4, scheduleWord key j.val = key.get j) ∧
    (∀ i : Nat, 4 ≤ i → i < 44 →
      (i % 4 = 0 →
        scheduleWord key i =
          xorWord (scheduleWord key (i - 4)) (xorWord (subWord (rotWord (scheduleWord key (i - 1)))) (rcon (i / 4)))) ∧
      (i % 4 ≠ 0 → scheduleWord key i = xorWord (scheduleWord key (i - 4)) (scheduleWord key (i - 1)))) ∧
    (∀ (r : Fin 11) (j : Fin 4), ((keyExpansion key).get r).get j = scheduleWord key (4 * r.val + j.val))

/-- R173 and R176, by row and column and by byte index. -/
def Obligations.ShiftRowsMovesEachByteByItsFormula : Prop :=
  (∀ (s : Block) (r c : Fin 4),
      (shiftRows s).entry r c = s.entry r ⟨(c.val + r.val) % 4, by omega⟩ ∧
      (invShiftRows s).entry r c = s.entry r ⟨(c.val + 4 - r.val) % 4, by omega⟩) ∧
    (∀ (s : Block) (i : Fin 16),
      (shiftRows s).byte i = s.byte ⟨i.val % 4 + 4 * ((i.val / 4 + i.val % 4) % 4), by omega⟩ ∧
      (invShiftRows s).byte i = s.byte ⟨i.val % 4 + 4 * ((i.val / 4 + 4 - i.val % 4) % 4), by omega⟩) ∧
    (∀ s : Block, invShiftRows (shiftRows s) = s ∧ shiftRows (invShiftRows s) = s) ∧
    shiftRows ⟨⟨0x00, 0x01, 0x02, 0x03⟩, ⟨0x04, 0x05, 0x06, 0x07⟩, ⟨0x08, 0x09, 0x0a, 0x0b⟩, ⟨0x0c, 0x0d, 0x0e, 0x0f⟩⟩ =
      ⟨⟨0x00, 0x05, 0x0a, 0x0f⟩, ⟨0x04, 0x09, 0x0e, 0x03⟩, ⟨0x08, 0x0d, 0x02, 0x07⟩, ⟨0x0c, 0x01, 0x06, 0x0b⟩⟩ ∧
    invShiftRows ⟨⟨0x00, 0x01, 0x02, 0x03⟩, ⟨0x04, 0x05, 0x06, 0x07⟩, ⟨0x08, 0x09, 0x0a, 0x0b⟩, ⟨0x0c, 0x0d, 0x0e, 0x0f⟩⟩ =
      ⟨⟨0x00, 0x0d, 0x0a, 0x07⟩, ⟨0x04, 0x01, 0x0e, 0x0b⟩, ⟨0x08, 0x05, 0x02, 0x0f⟩, ⟨0x0c, 0x09, 0x06, 0x03⟩⟩

/-- The claim of R177, on every state. -/
def Obligations.InvMixColumnsUndoesMixColumns : Prop :=
  ∀ s : Block, invMixColumns (mixColumns s) = s ∧ mixColumns (invMixColumns s) = s

/-- R181, and more: for every schedule, not only those KeyExpansion produces. -/
def Obligations.InvCipherUndoesCipher : Prop :=
  ∀ (x : Block) (rk : Schedule), invCipher (cipher x rk) rk = x ∧ cipher (invCipher x rk) rk = x

/-- R106 and R107, with the examples of R108. That an expansion is given a WAIT's number of further reads is the model's form of
'not fixed', and the case of the hex letters is read from the examples (assumption log 12). -/
def Obligations.PseudoStatementsExpandAsTabled : Prop :=
  (∀ (n : Nat) (off : Offset) (v : Word), expandStmt n (.w off v) = [.write off v 0xF#4] ∧ expandStmt n (.r off) = [.read off]) ∧
    (∀ (n : Nat) (i : Instr), expandStmt n (.cmd i) = [.write 0x08#8 (encode i) 0xF#4]) ∧
    (∀ (n : Nat) (b : Block),
      expandStmt n (.ldkey b) =
        [.write 0x10#8 (wordOf b.a0) 0xF#4, .write 0x14#8 (wordOf b.a1) 0xF#4, .write 0x18#8 (wordOf b.a2) 0xF#4,
          .write 0x1C#8 (wordOf b.a3) 0xF#4] ∧
      expandStmt n (.ldblk b) =
        [.write 0x20#8 (wordOf b.a0) 0xF#4, .write 0x24#8 (wordOf b.a1) 0xF#4, .write 0x28#8 (wordOf b.a2) 0xF#4,
          .write 0x2C#8 (wordOf b.a3) 0xF#4]) ∧
    (∀ n : Nat, expandStmt n .rdout = [.read 0x30#8, .read 0x34#8, .read 0x38#8, .read 0x3C#8]) ∧
    (∀ n : Nat, expandStmt n .wait = List.replicate (n + 1) (.read 0x0C#8)) ∧
    (∀ n : Nat, expandStmt n .clear = [.write 0x0C#8 0x00000086#32 0xF#4] ∧
      expandStmt n .irqon = [.write 0x04#8 0x00000001#32 0xF#4] ∧
      expandStmt n .irqoff = [.write 0x04#8 0x00000000#32 0xF#4]) ∧
    stmtEvents .wait = [.pollBusy] ∧ (∀ stmt : Stmt, stmt ≠ .wait → stmtEvents stmt = (expandStmt 0 stmt).map Event.access) ∧
    scriptText [] [.cmd .encBlock] = ["W 08 00000002".toList] ∧
    scriptText [] [.ldkey (blockOf ⟨0x00010203#32, 0x04050607#32, 0x08090a0b#32, 0x0c0d0e0f#32⟩)] =
      ["W 10 00010203".toList, "W 14 04050607".toList, "W 18 08090a0b".toList, "W 1C 0c0d0e0f".toList] ∧
    (∀ n : Nat, scriptText [n] [.wait] = List.replicate (n + 1) "R 0C".toList) ∧ scriptText [] [.wait] = ["R 0C".toList]

/-- R280 with R242 and R282, over the machine's own step. That the driver has the core to itself (R283, R349), its events coming
before all later ones, and that its WAIT takes exactly the steps of `stepsToTake`, is the model's choice (assumption log 9). -/
def Obligations.MessageDriverComputesEcb : Prop :=
  ∀ (d : Direction) (key : Block) (bs : List Block) (s : State),
    bs ≠ [] → s.pend = none → s.err = false → s.fsm = .idle ∨ s.fsm = .ready →
    ∃ t : State, ecbRunMsg d key bs s = .done (bs.map fun b => directedCipher d b (keyExpansion key)) t ∧
      t.fsm = .idle ∧ t.rk = Schedule.zero ∧ t.pend = none ∧ t.key = Quad.const 0x00000000#32 ∧ t.err = false ∧ t.script = s.script

/-- R281, over the machine's own step. That the driver has the core to itself (R283, R349), its events coming before all later ones,
and that its WAIT takes exactly the steps of `stepsToTake`, is the model's choice (assumption log 9). -/
def Obligations.BlockDriverComputesEcb : Prop :=
  ∀ (d : Direction) (key : Block) (bs : List Block) (s : State),
    s.pend = none → s.err = false → s.fsm = .idle ∨ s.fsm = .ready →
    ∃ t : State, ecbRunBlk d key bs s = .done (bs.map fun b => directedCipher d b (keyExpansion key)) t ∧
      t.fsm = .idle ∧ t.rk = Schedule.zero ∧ t.pend = none ∧ t.key = Quad.const 0x00000000#32 ∧ t.din = Quad.const 0x00000000#32 ∧ t.dout = Quad.const 0x00000000#32 ∧
      t.err = false ∧ t.script = s.script

/-- R272 and R273. -/
def Obligations.PaddingIsUndoneAndFillsBlocks : Prop :=
  ∀ x : ByteString,
    (pad x).length % 16 = 0 ∧ x.length < (pad x).length ∧ (pad x).length ≤ x.length + 16 ∧
    (x.length % 16 = 0 → (pad x).length = x.length + 16) ∧ unpad (pad x) = .ok x

/-- R271: decoding inverts encoding and accepts nothing else. -/
def Obligations.Base64AcceptsExactlyItsEncodings : Prop :=
  (∀ (t : Text) (x : ByteString), base64Decode t = .ok x ↔ t = base64Encode x) ∧
    (∀ t : Text, (∀ x : ByteString, t ≠ base64Encode x) → base64Decode t = .error .decodingError)

/-- R270: decoding inverts encoding and accepts nothing else. -/
def Obligations.Utf8AcceptsExactlyItsEncodings : Prop :=
  (∀ (x : ByteString) (t : Text), utf8Decode x = .ok t ↔ x = utf8Encode t) ∧
    (∀ x : ByteString, (∀ t : Text, x ≠ utf8Encode t) → utf8Decode x = .error .decodingError)

/-- The round-trip row of R285. -/
def Obligations.DecryptMessageUndoesEncryptMessage : Prop :=
  ∀ (text : Text) (key : Block), decryptMessage (encryptMessage text key) key = .ok text

/-- R277. -/
def Obligations.LibraryCallsCheckBeforeTheCipher : Prop :=
  ∀ text key : Text,
    (text = [] ∨ key = [] →
      encrypt text key = .error .inputValidationError ∧ decrypt text key = .error .inputValidationError) ∧
    (text ≠ [] → key ≠ [] → (utf8Encode key).length ≠ 16 →
      encrypt text key = .error .keyLengthError ∧ decrypt text key = .error .keyLengthError) ∧
    (text ≠ [] → key ≠ [] → (utf8Encode key).length = 16 →
      encrypt text key = .ok (encryptMessage text (blockOfBytes (utf8Encode key))) ∧
      decrypt text key = decryptMessage text (blockOfBytes (utf8Encode key))) ∧
    encryptOptional none (some key) = .error .inputValidationError ∧ encryptOptional (some text) none = .error .inputValidationError ∧
    decryptOptional none (some key) = .error .inputValidationError ∧ decryptOptional (some text) none = .error .inputValidationError

/-- R107's loop with R246 (it ends). That a poll is an event of the script, and the count of steps, are the model's (assumption logs
1, 2, 8). -/
def Obligations.WaitReadsStatusUntilBusyIsClear : Prop :=
  ∀ (s : State) (rest : List Event), s.script = .pollBusy :: rest →
    (completionDue s = false →
      step s =
        .next
          { s with
            script := if s.pend.isSome then .pollBusy :: rest else rest
            wait := s.wait - 1
            resp := some (.readData (statusWord s) false) }) ∧
    ∃ t : State, Host.Core.run Sys2Proof.core (if s.pend.isSome then s.wait + 2 else 1) s = .next t ∧ t.script = rest ∧
      t.pend = none ∧ t.resp = some (.readData (statusWord t) false) ∧ (statusWord t).getLsbD 0 = false
end

