-- ==== Sys2Proof/Laws/State.lean ====
section
/-! SUPPORT. One lemma per field per named update of State, each true by the update's definition, so that no proof unfolds a
record update again; and the fields an error record leaves alone. -/

namespace Sys2Proof.Machine

section

variable (e : Event) (s : State)

@[simp] theorem pushEvent_irqEn : (pushEvent e s).irqEn = s.irqEn := rfl
@[simp] theorem pushEvent_done : (pushEvent e s).done = s.done := rfl
@[simp] theorem pushEvent_err : (pushEvent e s).err = s.err := rfl
@[simp] theorem pushEvent_msgDone : (pushEvent e s).msgDone = s.msgDone := rfl
@[simp] theorem pushEvent_doutValid : (pushEvent e s).doutValid = s.doutValid := rfl
@[simp] theorem pushEvent_errcode : (pushEvent e s).errcode = s.errcode := rfl
@[simp] theorem pushEvent_keyWr : (pushEvent e s).keyWr = s.keyWr := rfl
@[simp] theorem pushEvent_dinWr : (pushEvent e s).dinWr = s.dinWr := rfl
@[simp] theorem pushEvent_key : (pushEvent e s).key = s.key := rfl
@[simp] theorem pushEvent_din : (pushEvent e s).din = s.din := rfl
@[simp] theorem pushEvent_dout : (pushEvent e s).dout = s.dout := rfl
@[simp] theorem pushEvent_blkcnt : (pushEvent e s).blkcnt = s.blkcnt := rfl
@[simp] theorem pushEvent_blkidx : (pushEvent e s).blkidx = s.blkidx := rfl
@[simp] theorem pushEvent_gfb : (pushEvent e s).gfb = s.gfb := rfl
@[simp] theorem pushEvent_fsm : (pushEvent e s).fsm = s.fsm := rfl
@[simp] theorem pushEvent_rk : (pushEvent e s).rk = s.rk := rfl
@[simp] theorem pushEvent_msgCnt : (pushEvent e s).msgCnt = s.msgCnt := rfl
@[simp] theorem pushEvent_pend : (pushEvent e s).pend = s.pend := rfl
@[simp] theorem pushEvent_wait : (pushEvent e s).wait = s.wait := rfl
@[simp] theorem pushEvent_accepts : (pushEvent e s).accepts = s.accepts := rfl
@[simp] theorem pushEvent_script : (pushEvent e s).script = e :: s.script := rfl
@[simp] theorem pushEvent_resp : (pushEvent e s).resp = s.resp := rfl

end

section

variable (r : Response) (s : State)

@[simp] theorem answer_irqEn : (answer r s).irqEn = s.irqEn := rfl
@[simp] theorem answer_done : (answer r s).done = s.done := rfl
@[simp] theorem answer_err : (answer r s).err = s.err := rfl
@[simp] theorem answer_msgDone : (answer r s).msgDone = s.msgDone := rfl
@[simp] theorem answer_doutValid : (answer r s).doutValid = s.doutValid := rfl
@[simp] theorem answer_errcode : (answer r s).errcode = s.errcode := rfl
@[simp] theorem answer_keyWr : (answer r s).keyWr = s.keyWr := rfl
@[simp] theorem answer_dinWr : (answer r s).dinWr = s.dinWr := rfl
@[simp] theorem answer_key : (answer r s).key = s.key := rfl
@[simp] theorem answer_din : (answer r s).din = s.din := rfl
@[simp] theorem answer_dout : (answer r s).dout = s.dout := rfl
@[simp] theorem answer_blkcnt : (answer r s).blkcnt = s.blkcnt := rfl
@[simp] theorem answer_blkidx : (answer r s).blkidx = s.blkidx := rfl
@[simp] theorem answer_gfb : (answer r s).gfb = s.gfb := rfl
@[simp] theorem answer_fsm : (answer r s).fsm = s.fsm := rfl
@[simp] theorem answer_rk : (answer r s).rk = s.rk := rfl
@[simp] theorem answer_msgCnt : (answer r s).msgCnt = s.msgCnt := rfl
@[simp] theorem answer_pend : (answer r s).pend = s.pend := rfl
@[simp] theorem answer_wait : (answer r s).wait = s.wait := rfl
@[simp] theorem answer_accepts : (answer r s).accepts = s.accepts := rfl
@[simp] theorem answer_script : (answer r s).script = s.script := rfl
@[simp] theorem answer_resp : (answer r s).resp = some r := rfl

end

section

variable (rest : List Event) (s : State)

@[simp] theorem takeEvent_irqEn : (takeEvent rest s).irqEn = s.irqEn := rfl
@[simp] theorem takeEvent_done : (takeEvent rest s).done = s.done := rfl
@[simp] theorem takeEvent_err : (takeEvent rest s).err = s.err := rfl
@[simp] theorem takeEvent_msgDone : (takeEvent rest s).msgDone = s.msgDone := rfl
@[simp] theorem takeEvent_doutValid : (takeEvent rest s).doutValid = s.doutValid := rfl
@[simp] theorem takeEvent_errcode : (takeEvent rest s).errcode = s.errcode := rfl
@[simp] theorem takeEvent_keyWr : (takeEvent rest s).keyWr = s.keyWr := rfl
@[simp] theorem takeEvent_dinWr : (takeEvent rest s).dinWr = s.dinWr := rfl
@[simp] theorem takeEvent_key : (takeEvent rest s).key = s.key := rfl
@[simp] theorem takeEvent_din : (takeEvent rest s).din = s.din := rfl
@[simp] theorem takeEvent_dout : (takeEvent rest s).dout = s.dout := rfl
@[simp] theorem takeEvent_blkcnt : (takeEvent rest s).blkcnt = s.blkcnt := rfl
@[simp] theorem takeEvent_blkidx : (takeEvent rest s).blkidx = s.blkidx := rfl
@[simp] theorem takeEvent_gfb : (takeEvent rest s).gfb = s.gfb := rfl
@[simp] theorem takeEvent_fsm : (takeEvent rest s).fsm = s.fsm := rfl
@[simp] theorem takeEvent_rk : (takeEvent rest s).rk = s.rk := rfl
@[simp] theorem takeEvent_msgCnt : (takeEvent rest s).msgCnt = s.msgCnt := rfl
@[simp] theorem takeEvent_pend : (takeEvent rest s).pend = s.pend := rfl
@[simp] theorem takeEvent_wait : (takeEvent rest s).wait = s.wait := rfl
@[simp] theorem takeEvent_accepts : (takeEvent rest s).accepts = s.accepts := rfl
@[simp] theorem takeEvent_script : (takeEvent rest s).script = rest := rfl
@[simp] theorem takeEvent_resp : (takeEvent rest s).resp = s.resp := rfl

end

section

variable (s : State)

@[simp] theorem tick_irqEn : (tick s).irqEn = s.irqEn := rfl
@[simp] theorem tick_done : (tick s).done = s.done := rfl
@[simp] theorem tick_err : (tick s).err = s.err := rfl
@[simp] theorem tick_msgDone : (tick s).msgDone = s.msgDone := rfl
@[simp] theorem tick_doutValid : (tick s).doutValid = s.doutValid := rfl
@[simp] theorem tick_errcode : (tick s).errcode = s.errcode := rfl
@[simp] theorem tick_keyWr : (tick s).keyWr = s.keyWr := rfl
@[simp] theorem tick_dinWr : (tick s).dinWr = s.dinWr := rfl
@[simp] theorem tick_key : (tick s).key = s.key := rfl
@[simp] theorem tick_din : (tick s).din = s.din := rfl
@[simp] theorem tick_dout : (tick s).dout = s.dout := rfl
@[simp] theorem tick_blkcnt : (tick s).blkcnt = s.blkcnt := rfl
@[simp] theorem tick_blkidx : (tick s).blkidx = s.blkidx := rfl
@[simp] theorem tick_gfb : (tick s).gfb = s.gfb := rfl
@[simp] theorem tick_fsm : (tick s).fsm = s.fsm := rfl
@[simp] theorem tick_rk : (tick s).rk = s.rk := rfl
@[simp] theorem tick_msgCnt : (tick s).msgCnt = s.msgCnt := rfl
@[simp] theorem tick_pend : (tick s).pend = s.pend := rfl
@[simp] theorem tick_wait : (tick s).wait = s.wait - 1 := rfl
@[simp] theorem tick_accepts : (tick s).accepts = s.accepts := rfl
@[simp] theorem tick_script : (tick s).script = s.script := rfl
@[simp] theorem tick_resp : (tick s).resp = s.resp := rfl

end

section

variable (s : State)

@[simp] theorem finish_irqEn : (finish s).irqEn = s.irqEn := rfl
@[simp] theorem finish_done : (finish s).done = true := rfl
@[simp] theorem finish_err : (finish s).err = s.err := rfl
@[simp] theorem finish_msgDone : (finish s).msgDone = s.msgDone := rfl
@[simp] theorem finish_doutValid : (finish s).doutValid = s.doutValid := rfl
@[simp] theorem finish_errcode : (finish s).errcode = s.errcode := rfl
@[simp] theorem finish_keyWr : (finish s).keyWr = s.keyWr := rfl
@[simp] theorem finish_dinWr : (finish s).dinWr = s.dinWr := rfl
@[simp] theorem finish_key : (finish s).key = s.key := rfl
@[simp] theorem finish_din : (finish s).din = s.din := rfl
@[simp] theorem finish_dout : (finish s).dout = s.dout := rfl
@[simp] theorem finish_blkcnt : (finish s).blkcnt = s.blkcnt := rfl
@[simp] theorem finish_blkidx : (finish s).blkidx = s.blkidx := rfl
@[simp] theorem finish_gfb : (finish s).gfb = s.gfb := rfl
@[simp] theorem finish_fsm : (finish s).fsm = s.fsm := rfl
@[simp] theorem finish_rk : (finish s).rk = s.rk := rfl
@[simp] theorem finish_msgCnt : (finish s).msgCnt = s.msgCnt := rfl
@[simp] theorem finish_pend : (finish s).pend = none := rfl
@[simp] theorem finish_wait : (finish s).wait = 0 := rfl
@[simp] theorem finish_accepts : (finish s).accepts = s.accepts := rfl
@[simp] theorem finish_script : (finish s).script = s.script := rfl
@[simp] theorem finish_resp : (finish s).resp = s.resp := rfl

end

section

variable (out : Block) (s : State)

@[simp] theorem storeDout_irqEn : (storeDout out s).irqEn = s.irqEn := rfl
@[simp] theorem storeDout_done : (storeDout out s).done = s.done := rfl
@[simp] theorem storeDout_err : (storeDout out s).err = s.err := rfl
@[simp] theorem storeDout_msgDone : (storeDout out s).msgDone = s.msgDone := rfl
@[simp] theorem storeDout_doutValid : (storeDout out s).doutValid = true := rfl
@[simp] theorem storeDout_errcode : (storeDout out s).errcode = s.errcode := rfl
@[simp] theorem storeDout_keyWr : (storeDout out s).keyWr = s.keyWr := rfl
@[simp] theorem storeDout_dinWr : (storeDout out s).dinWr = s.dinWr := rfl
@[simp] theorem storeDout_key : (storeDout out s).key = s.key := rfl
@[simp] theorem storeDout_din : (storeDout out s).din = s.din := rfl
@[simp] theorem storeDout_dout : (storeDout out s).dout = wordsOf out := rfl
@[simp] theorem storeDout_blkcnt : (storeDout out s).blkcnt = s.blkcnt := rfl
@[simp] theorem storeDout_blkidx : (storeDout out s).blkidx = s.blkidx := rfl
@[simp] theorem storeDout_gfb : (storeDout out s).gfb = s.gfb := rfl
@[simp] theorem storeDout_fsm : (storeDout out s).fsm = s.fsm := rfl
@[simp] theorem storeDout_rk : (storeDout out s).rk = s.rk := rfl
@[simp] theorem storeDout_msgCnt : (storeDout out s).msgCnt = s.msgCnt := rfl
@[simp] theorem storeDout_pend : (storeDout out s).pend = s.pend := rfl
@[simp] theorem storeDout_wait : (storeDout out s).wait = s.wait := rfl
@[simp] theorem storeDout_accepts : (storeDout out s).accepts = s.accepts := rfl
@[simp] theorem storeDout_script : (storeDout out s).script = s.script := rfl
@[simp] theorem storeDout_resp : (storeDout out s).resp = s.resp := rfl

end

section

variable (k : Block) (f : Fsm) (s : State)

@[simp] theorem loadSchedule_irqEn : (loadSchedule k f s).irqEn = s.irqEn := rfl
@[simp] theorem loadSchedule_done : (loadSchedule k f s).done = s.done := rfl
@[simp] theorem loadSchedule_err : (loadSchedule k f s).err = s.err := rfl
@[simp] theorem loadSchedule_msgDone : (loadSchedule k f s).msgDone = s.msgDone := rfl
@[simp] theorem loadSchedule_doutValid : (loadSchedule k f s).doutValid = s.doutValid := rfl
@[simp] theorem loadSchedule_errcode : (loadSchedule k f s).errcode = s.errcode := rfl
@[simp] theorem loadSchedule_keyWr : (loadSchedule k f s).keyWr = s.keyWr := rfl
@[simp] theorem loadSchedule_dinWr : (loadSchedule k f s).dinWr = s.dinWr := rfl
@[simp] theorem loadSchedule_key : (loadSchedule k f s).key = s.key := rfl
@[simp] theorem loadSchedule_din : (loadSchedule k f s).din = s.din := rfl
@[simp] theorem loadSchedule_dout : (loadSchedule k f s).dout = s.dout := rfl
@[simp] theorem loadSchedule_blkcnt : (loadSchedule k f s).blkcnt = s.blkcnt := rfl
@[simp] theorem loadSchedule_blkidx : (loadSchedule k f s).blkidx = s.blkidx := rfl
@[simp] theorem loadSchedule_gfb : (loadSchedule k f s).gfb = s.gfb := rfl
@[simp] theorem loadSchedule_fsm : (loadSchedule k f s).fsm = f := rfl
@[simp] theorem loadSchedule_rk : (loadSchedule k f s).rk = keyExpansion k := rfl
@[simp] theorem loadSchedule_msgCnt : (loadSchedule k f s).msgCnt = s.msgCnt := rfl
@[simp] theorem loadSchedule_pend : (loadSchedule k f s).pend = s.pend := rfl
@[simp] theorem loadSchedule_wait : (loadSchedule k f s).wait = s.wait := rfl
@[simp] theorem loadSchedule_accepts : (loadSchedule k f s).accepts = s.accepts := rfl
@[simp] theorem loadSchedule_script : (loadSchedule k f s).script = s.script := rfl
@[simp] theorem loadSchedule_resp : (loadSchedule k f s).resp = s.resp := rfl

end

section

variable (s : State)

@[simp] theorem dropSchedule_irqEn : (dropSchedule s).irqEn = s.irqEn := rfl
@[simp] theorem dropSchedule_done : (dropSchedule s).done = s.done := rfl
@[simp] theorem dropSchedule_err : (dropSchedule s).err = s.err := rfl
@[simp] theorem dropSchedule_msgDone : (dropSchedule s).msgDone = s.msgDone := rfl
@[simp] theorem dropSchedule_doutValid : (dropSchedule s).doutValid = s.doutValid := rfl
@[simp] theorem dropSchedule_errcode : (dropSchedule s).errcode = s.errcode := rfl
@[simp] theorem dropSchedule_keyWr : (dropSchedule s).keyWr = s.keyWr := rfl
@[simp] theorem dropSchedule_dinWr : (dropSchedule s).dinWr = s.dinWr := rfl
@[simp] theorem dropSchedule_key : (dropSchedule s).key = s.key := rfl
@[simp] theorem dropSchedule_din : (dropSchedule s).din = s.din := rfl
@[simp] theorem dropSchedule_dout : (dropSchedule s).dout = s.dout := rfl
@[simp] theorem dropSchedule_blkcnt : (dropSchedule s).blkcnt = s.blkcnt := rfl
@[simp] theorem dropSchedule_blkidx : (dropSchedule s).blkidx = s.blkidx := rfl
@[simp] theorem dropSchedule_gfb : (dropSchedule s).gfb = s.gfb := rfl
@[simp] theorem dropSchedule_fsm : (dropSchedule s).fsm = .idle := rfl
@[simp] theorem dropSchedule_rk : (dropSchedule s).rk = Schedule.zero := rfl
@[simp] theorem dropSchedule_msgCnt : (dropSchedule s).msgCnt = s.msgCnt := rfl
@[simp] theorem dropSchedule_pend : (dropSchedule s).pend = s.pend := rfl
@[simp] theorem dropSchedule_wait : (dropSchedule s).wait = s.wait := rfl
@[simp] theorem dropSchedule_accepts : (dropSchedule s).accepts = s.accepts := rfl
@[simp] theorem dropSchedule_script : (dropSchedule s).script = s.script := rfl
@[simp] theorem dropSchedule_resp : (dropSchedule s).resp = s.resp := rfl

end

section

variable (s : State)

@[simp] theorem takeMessage_irqEn : (takeMessage s).irqEn = s.irqEn := rfl
@[simp] theorem takeMessage_done : (takeMessage s).done = s.done := rfl
@[simp] theorem takeMessage_err : (takeMessage s).err = s.err := rfl
@[simp] theorem takeMessage_msgDone : (takeMessage s).msgDone = s.msgDone := rfl
@[simp] theorem takeMessage_doutValid : (takeMessage s).doutValid = s.doutValid := rfl
@[simp] theorem takeMessage_errcode : (takeMessage s).errcode = s.errcode := rfl
@[simp] theorem takeMessage_keyWr : (takeMessage s).keyWr = 0b0000#4 := rfl
@[simp] theorem takeMessage_dinWr : (takeMessage s).dinWr = s.dinWr := rfl
@[simp] theorem takeMessage_key : (takeMessage s).key = Quad.const 0x00000000#32 := rfl
@[simp] theorem takeMessage_din : (takeMessage s).din = s.din := rfl
@[simp] theorem takeMessage_dout : (takeMessage s).dout = s.dout := rfl
@[simp] theorem takeMessage_blkcnt : (takeMessage s).blkcnt = s.blkcnt := rfl
@[simp] theorem takeMessage_blkidx : (takeMessage s).blkidx = s.blkidx := rfl
@[simp] theorem takeMessage_gfb : (takeMessage s).gfb = s.gfb := rfl
@[simp] theorem takeMessage_fsm : (takeMessage s).fsm = s.fsm := rfl
@[simp] theorem takeMessage_rk : (takeMessage s).rk = s.rk := rfl
@[simp] theorem takeMessage_msgCnt : (takeMessage s).msgCnt = s.blkcnt := rfl
@[simp] theorem takeMessage_pend : (takeMessage s).pend = s.pend := rfl
@[simp] theorem takeMessage_wait : (takeMessage s).wait = s.wait := rfl
@[simp] theorem takeMessage_accepts : (takeMessage s).accepts = s.accepts := rfl
@[simp] theorem takeMessage_script : (takeMessage s).script = s.script := rfl
@[simp] theorem takeMessage_resp : (takeMessage s).resp = s.resp := rfl

end

section

variable (f : Fsm) (p : Pending) (s : State)

@[simp] theorem openMessage_irqEn : (openMessage f p s).irqEn = s.irqEn := rfl
@[simp] theorem openMessage_done : (openMessage f p s).done = s.done := rfl
@[simp] theorem openMessage_err : (openMessage f p s).err = s.err := rfl
@[simp] theorem openMessage_msgDone : (openMessage f p s).msgDone = false := rfl
@[simp] theorem openMessage_doutValid : (openMessage f p s).doutValid = s.doutValid := rfl
@[simp] theorem openMessage_errcode : (openMessage f p s).errcode = s.errcode := rfl
@[simp] theorem openMessage_keyWr : (openMessage f p s).keyWr = s.keyWr := rfl
@[simp] theorem openMessage_dinWr : (openMessage f p s).dinWr = s.dinWr := rfl
@[simp] theorem openMessage_key : (openMessage f p s).key = s.key := rfl
@[simp] theorem openMessage_din : (openMessage f p s).din = s.din := rfl
@[simp] theorem openMessage_dout : (openMessage f p s).dout = s.dout := rfl
@[simp] theorem openMessage_blkcnt : (openMessage f p s).blkcnt = s.blkcnt := rfl
@[simp] theorem openMessage_blkidx : (openMessage f p s).blkidx = 0#16 := rfl
@[simp] theorem openMessage_gfb : (openMessage f p s).gfb = s.gfb := rfl
@[simp] theorem openMessage_fsm : (openMessage f p s).fsm = f := rfl
@[simp] theorem openMessage_rk : (openMessage f p s).rk = keyExpansion p.lkey := rfl
@[simp] theorem openMessage_msgCnt : (openMessage f p s).msgCnt = s.msgCnt := rfl
@[simp] theorem openMessage_pend : (openMessage f p s).pend = s.pend := rfl
@[simp] theorem openMessage_wait : (openMessage f p s).wait = s.wait := rfl
@[simp] theorem openMessage_accepts : (openMessage f p s).accepts = s.accepts := rfl
@[simp] theorem openMessage_script : (openMessage f p s).script = s.script := rfl
@[simp] theorem openMessage_resp : (openMessage f p s).resp = s.resp := rfl

end

section

variable (s : State)

@[simp] theorem endMessage_irqEn : (endMessage s).irqEn = s.irqEn := rfl
@[simp] theorem endMessage_done : (endMessage s).done = s.done := rfl
@[simp] theorem endMessage_err : (endMessage s).err = s.err := rfl
@[simp] theorem endMessage_msgDone : (endMessage s).msgDone = true := rfl
@[simp] theorem endMessage_doutValid : (endMessage s).doutValid = s.doutValid := rfl
@[simp] theorem endMessage_errcode : (endMessage s).errcode = s.errcode := rfl
@[simp] theorem endMessage_keyWr : (endMessage s).keyWr = s.keyWr := rfl
@[simp] theorem endMessage_dinWr : (endMessage s).dinWr = s.dinWr := rfl
@[simp] theorem endMessage_key : (endMessage s).key = s.key := rfl
@[simp] theorem endMessage_din : (endMessage s).din = s.din := rfl
@[simp] theorem endMessage_dout : (endMessage s).dout = s.dout := rfl
@[simp] theorem endMessage_blkcnt : (endMessage s).blkcnt = s.blkcnt := rfl
@[simp] theorem endMessage_blkidx : (endMessage s).blkidx = s.blkidx := rfl
@[simp] theorem endMessage_gfb : (endMessage s).gfb = s.gfb := rfl
@[simp] theorem endMessage_fsm : (endMessage s).fsm = .idle := rfl
@[simp] theorem endMessage_rk : (endMessage s).rk = Schedule.zero := rfl
@[simp] theorem endMessage_msgCnt : (endMessage s).msgCnt = s.msgCnt := rfl
@[simp] theorem endMessage_pend : (endMessage s).pend = s.pend := rfl
@[simp] theorem endMessage_wait : (endMessage s).wait = s.wait := rfl
@[simp] theorem endMessage_accepts : (endMessage s).accepts = s.accepts := rfl
@[simp] theorem endMessage_script : (endMessage s).script = s.script := rfl
@[simp] theorem endMessage_resp : (endMessage s).resp = s.resp := rfl

end

section

variable (s : State)

@[simp] theorem acceptZeroize_irqEn : (acceptZeroize s).irqEn = s.irqEn := rfl
@[simp] theorem acceptZeroize_done : (acceptZeroize s).done = s.done := rfl
@[simp] theorem acceptZeroize_err : (acceptZeroize s).err = s.err := rfl
@[simp] theorem acceptZeroize_msgDone : (acceptZeroize s).msgDone = s.msgDone := rfl
@[simp] theorem acceptZeroize_doutValid : (acceptZeroize s).doutValid = false := rfl
@[simp] theorem acceptZeroize_errcode : (acceptZeroize s).errcode = s.errcode := rfl
@[simp] theorem acceptZeroize_keyWr : (acceptZeroize s).keyWr = 0b0000#4 := rfl
@[simp] theorem acceptZeroize_dinWr : (acceptZeroize s).dinWr = 0b0000#4 := rfl
@[simp] theorem acceptZeroize_key : (acceptZeroize s).key = Quad.const 0x00000000#32 := rfl
@[simp] theorem acceptZeroize_din : (acceptZeroize s).din = Quad.const 0x00000000#32 := rfl
@[simp] theorem acceptZeroize_dout : (acceptZeroize s).dout = s.dout := rfl
@[simp] theorem acceptZeroize_blkcnt : (acceptZeroize s).blkcnt = 0#16 := rfl
@[simp] theorem acceptZeroize_blkidx : (acceptZeroize s).blkidx = s.blkidx := rfl
@[simp] theorem acceptZeroize_gfb : (acceptZeroize s).gfb = 0x00#8 := rfl
@[simp] theorem acceptZeroize_fsm : (acceptZeroize s).fsm = s.fsm := rfl
@[simp] theorem acceptZeroize_rk : (acceptZeroize s).rk = s.rk := rfl
@[simp] theorem acceptZeroize_msgCnt : (acceptZeroize s).msgCnt = s.msgCnt := rfl
@[simp] theorem acceptZeroize_pend : (acceptZeroize s).pend = s.pend := rfl
@[simp] theorem acceptZeroize_wait : (acceptZeroize s).wait = s.wait := rfl
@[simp] theorem acceptZeroize_accepts : (acceptZeroize s).accepts = s.accepts := rfl
@[simp] theorem acceptZeroize_script : (acceptZeroize s).script = s.script := rfl
@[simp] theorem acceptZeroize_resp : (acceptZeroize s).resp = s.resp := rfl

end

section

variable (p : Pending) (s : State)

@[simp] theorem completeZeroize_irqEn : (completeZeroize p s).irqEn = s.irqEn := rfl
@[simp] theorem completeZeroize_done : (completeZeroize p s).done = s.done := rfl
@[simp] theorem completeZeroize_err : (completeZeroize p s).err = s.err := rfl
@[simp] theorem completeZeroize_msgDone : (completeZeroize p s).msgDone = false := rfl
@[simp] theorem completeZeroize_doutValid : (completeZeroize p s).doutValid = s.doutValid := rfl
@[simp] theorem completeZeroize_errcode : (completeZeroize p s).errcode = s.errcode := rfl
@[simp] theorem completeZeroize_keyWr : (completeZeroize p s).keyWr = s.keyWr := rfl
@[simp] theorem completeZeroize_dinWr : (completeZeroize p s).dinWr = s.dinWr := rfl
@[simp] theorem completeZeroize_key : (completeZeroize p s).key = s.key := rfl
@[simp] theorem completeZeroize_din : (completeZeroize p s).din = s.din := rfl
@[simp] theorem completeZeroize_dout : (completeZeroize p s).dout = Quad.const 0x00000000#32 := rfl
@[simp] theorem completeZeroize_blkcnt : (completeZeroize p s).blkcnt = s.blkcnt := rfl
@[simp] theorem completeZeroize_blkidx : (completeZeroize p s).blkidx = 0#16 := rfl
@[simp] theorem completeZeroize_gfb : (completeZeroize p s).gfb = s.gfb := rfl
@[simp] theorem completeZeroize_fsm : (completeZeroize p s).fsm = .idle := rfl
@[simp] theorem completeZeroize_rk : (completeZeroize p s).rk = Schedule.zero := rfl
@[simp] theorem completeZeroize_msgCnt : (completeZeroize p s).msgCnt = 0#16 := rfl
@[simp] theorem completeZeroize_pend : (completeZeroize p s).pend = s.pend := rfl
@[simp] theorem completeZeroize_wait : (completeZeroize p s).wait = s.wait := rfl
@[simp] theorem completeZeroize_accepts : (completeZeroize p s).accepts = s.accepts := rfl
@[simp] theorem completeZeroize_script : (completeZeroize p s).script = s.script := rfl
@[simp] theorem completeZeroize_resp : (completeZeroize p s).resp = s.resp := rfl

end

section

variable (i : Instr) (s : State)

@[simp] theorem acceptCommon_irqEn : (acceptCommon i s).irqEn = s.irqEn := rfl
@[simp] theorem acceptCommon_done : (acceptCommon i s).done = false := rfl
@[simp] theorem acceptCommon_err : (acceptCommon i s).err = s.err := rfl
@[simp] theorem acceptCommon_msgDone : (acceptCommon i s).msgDone = s.msgDone := rfl
@[simp] theorem acceptCommon_doutValid : (acceptCommon i s).doutValid = if producesDout i then false else s.doutValid := rfl
@[simp] theorem acceptCommon_errcode : (acceptCommon i s).errcode = s.errcode := rfl
@[simp] theorem acceptCommon_keyWr : (acceptCommon i s).keyWr = s.keyWr := rfl
@[simp] theorem acceptCommon_dinWr : (acceptCommon i s).dinWr = if needsDin i then 0b0000#4 else s.dinWr := rfl
@[simp] theorem acceptCommon_key : (acceptCommon i s).key = s.key := rfl
@[simp] theorem acceptCommon_din : (acceptCommon i s).din = s.din := rfl
@[simp] theorem acceptCommon_dout : (acceptCommon i s).dout = s.dout := rfl
@[simp] theorem acceptCommon_blkcnt : (acceptCommon i s).blkcnt = s.blkcnt := rfl
@[simp] theorem acceptCommon_blkidx : (acceptCommon i s).blkidx = s.blkidx := rfl
@[simp] theorem acceptCommon_gfb : (acceptCommon i s).gfb = s.gfb := rfl
@[simp] theorem acceptCommon_fsm : (acceptCommon i s).fsm = s.fsm := rfl
@[simp] theorem acceptCommon_rk : (acceptCommon i s).rk = s.rk := rfl
@[simp] theorem acceptCommon_msgCnt : (acceptCommon i s).msgCnt = s.msgCnt := rfl
@[simp] theorem acceptCommon_pend : (acceptCommon i s).pend = some (latch i s) := rfl
@[simp] theorem acceptCommon_wait : (acceptCommon i s).wait = Config.latency s.accepts i := rfl
@[simp] theorem acceptCommon_accepts : (acceptCommon i s).accepts = s.accepts + 1 := rfl
@[simp] theorem acceptCommon_script : (acceptCommon i s).script = s.script := rfl
@[simp] theorem acceptCommon_resp : (acceptCommon i s).resp = s.resp := rfl

end

section

variable (v : Word) (s : State)

@[simp] theorem clearStatus_irqEn : (clearStatus v s).irqEn = s.irqEn := rfl
@[simp] theorem clearStatus_done : (clearStatus v s).done = if v.getLsbD 1 then false else s.done := rfl
@[simp] theorem clearStatus_err : (clearStatus v s).err = if v.getLsbD 2 then false else s.err := rfl
@[simp] theorem clearStatus_msgDone : (clearStatus v s).msgDone = if v.getLsbD 7 then false else s.msgDone := rfl
@[simp] theorem clearStatus_doutValid : (clearStatus v s).doutValid = s.doutValid := rfl
@[simp] theorem clearStatus_errcode : (clearStatus v s).errcode = if v.getLsbD 2 then 0x0#4 else s.errcode := rfl
@[simp] theorem clearStatus_keyWr : (clearStatus v s).keyWr = s.keyWr := rfl
@[simp] theorem clearStatus_dinWr : (clearStatus v s).dinWr = s.dinWr := rfl
@[simp] theorem clearStatus_key : (clearStatus v s).key = s.key := rfl
@[simp] theorem clearStatus_din : (clearStatus v s).din = s.din := rfl
@[simp] theorem clearStatus_dout : (clearStatus v s).dout = s.dout := rfl
@[simp] theorem clearStatus_blkcnt : (clearStatus v s).blkcnt = s.blkcnt := rfl
@[simp] theorem clearStatus_blkidx : (clearStatus v s).blkidx = s.blkidx := rfl
@[simp] theorem clearStatus_gfb : (clearStatus v s).gfb = s.gfb := rfl
@[simp] theorem clearStatus_fsm : (clearStatus v s).fsm = s.fsm := rfl
@[simp] theorem clearStatus_rk : (clearStatus v s).rk = s.rk := rfl
@[simp] theorem clearStatus_msgCnt : (clearStatus v s).msgCnt = s.msgCnt := rfl
@[simp] theorem clearStatus_pend : (clearStatus v s).pend = s.pend := rfl
@[simp] theorem clearStatus_wait : (clearStatus v s).wait = s.wait := rfl
@[simp] theorem clearStatus_accepts : (clearStatus v s).accepts = s.accepts := rfl
@[simp] theorem clearStatus_script : (clearStatus v s).script = s.script := rfl
@[simp] theorem clearStatus_resp : (clearStatus v s).resp = s.resp := rfl

end

section

variable (e : Event) (s : State)

@[simp] theorem withNextEvent_irqEn : (withNextEvent e s).irqEn = s.irqEn := rfl
@[simp] theorem withNextEvent_done : (withNextEvent e s).done = s.done := rfl
@[simp] theorem withNextEvent_err : (withNextEvent e s).err = s.err := rfl
@[simp] theorem withNextEvent_msgDone : (withNextEvent e s).msgDone = s.msgDone := rfl
@[simp] theorem withNextEvent_doutValid : (withNextEvent e s).doutValid = s.doutValid := rfl
@[simp] theorem withNextEvent_errcode : (withNextEvent e s).errcode = s.errcode := rfl
@[simp] theorem withNextEvent_keyWr : (withNextEvent e s).keyWr = s.keyWr := rfl
@[simp] theorem withNextEvent_dinWr : (withNextEvent e s).dinWr = s.dinWr := rfl
@[simp] theorem withNextEvent_key : (withNextEvent e s).key = s.key := rfl
@[simp] theorem withNextEvent_din : (withNextEvent e s).din = s.din := rfl
@[simp] theorem withNextEvent_dout : (withNextEvent e s).dout = s.dout := rfl
@[simp] theorem withNextEvent_blkcnt : (withNextEvent e s).blkcnt = s.blkcnt := rfl
@[simp] theorem withNextEvent_blkidx : (withNextEvent e s).blkidx = s.blkidx := rfl
@[simp] theorem withNextEvent_gfb : (withNextEvent e s).gfb = s.gfb := rfl
@[simp] theorem withNextEvent_fsm : (withNextEvent e s).fsm = s.fsm := rfl
@[simp] theorem withNextEvent_rk : (withNextEvent e s).rk = s.rk := rfl
@[simp] theorem withNextEvent_msgCnt : (withNextEvent e s).msgCnt = s.msgCnt := rfl
@[simp] theorem withNextEvent_pend : (withNextEvent e s).pend = s.pend := rfl
@[simp] theorem withNextEvent_wait : (withNextEvent e s).wait = if completionDue s then 1 else s.wait := rfl
@[simp] theorem withNextEvent_accepts : (withNextEvent e s).accepts = s.accepts := rfl
@[simp] theorem withNextEvent_script : (withNextEvent e s).script = e :: s.script := rfl
@[simp] theorem withNextEvent_resp : (withNextEvent e s).resp = s.resp := rfl

end

section

variable (c : ErrCode) (s : State)

/-- With no error recorded, the error is (R301). -/
theorem raiseError_first (h : s.err = false) : raiseError c s = { s with err := true, errcode := c.code } := by
  simp [raiseError, h]

/-- With an error recorded, nothing changes (R301). -/
theorem raiseError_again (h : s.err = true) : raiseError c s = s := by
  simp [raiseError, h]

@[simp] theorem raiseError_err : (raiseError c s).err = true := by
  unfold raiseError; split <;> simp_all

theorem raiseError_errcode : (raiseError c s).errcode = if s.err then s.errcode else c.code := by
  unfold raiseError; split <;> simp_all

@[simp] theorem raiseError_irqEn : (raiseError c s).irqEn = s.irqEn := by unfold raiseError; split <;> rfl
@[simp] theorem raiseError_done : (raiseError c s).done = s.done := by unfold raiseError; split <;> rfl
@[simp] theorem raiseError_msgDone : (raiseError c s).msgDone = s.msgDone := by unfold raiseError; split <;> rfl
@[simp] theorem raiseError_doutValid : (raiseError c s).doutValid = s.doutValid := by unfold raiseError; split <;> rfl
@[simp] theorem raiseError_keyWr : (raiseError c s).keyWr = s.keyWr := by unfold raiseError; split <;> rfl
@[simp] theorem raiseError_dinWr : (raiseError c s).dinWr = s.dinWr := by unfold raiseError; split <;> rfl
@[simp] theorem raiseError_key : (raiseError c s).key = s.key := by unfold raiseError; split <;> rfl
@[simp] theorem raiseError_din : (raiseError c s).din = s.din := by unfold raiseError; split <;> rfl
@[simp] theorem raiseError_dout : (raiseError c s).dout = s.dout := by unfold raiseError; split <;> rfl
@[simp] theorem raiseError_blkcnt : (raiseError c s).blkcnt = s.blkcnt := by unfold raiseError; split <;> rfl
@[simp] theorem raiseError_blkidx : (raiseError c s).blkidx = s.blkidx := by unfold raiseError; split <;> rfl
@[simp] theorem raiseError_gfb : (raiseError c s).gfb = s.gfb := by unfold raiseError; split <;> rfl
@[simp] theorem raiseError_fsm : (raiseError c s).fsm = s.fsm := by unfold raiseError; split <;> rfl
@[simp] theorem raiseError_rk : (raiseError c s).rk = s.rk := by unfold raiseError; split <;> rfl
@[simp] theorem raiseError_msgCnt : (raiseError c s).msgCnt = s.msgCnt := by unfold raiseError; split <;> rfl
@[simp] theorem raiseError_pend : (raiseError c s).pend = s.pend := by unfold raiseError; split <;> rfl
@[simp] theorem raiseError_wait : (raiseError c s).wait = s.wait := by unfold raiseError; split <;> rfl
@[simp] theorem raiseError_accepts : (raiseError c s).accepts = s.accepts := by unfold raiseError; split <;> rfl
@[simp] theorem raiseError_script : (raiseError c s).script = s.script := by unfold raiseError; split <;> rfl
@[simp] theorem raiseError_resp : (raiseError c s).resp = s.resp := by unfold raiseError; split <;> rfl

end

/-! What the host reads is not changed by the answer given, a step of waiting, or the events to come. -/

section

variable (r : Response) (e : Event) (rest : List Event) (s : State)

@[simp] theorem statusWord_answer : statusWord (answer r s) = statusWord s := rfl
@[simp] theorem statusWord_tick : statusWord (tick s) = statusWord s := rfl
@[simp] theorem statusWord_takeEvent : statusWord (takeEvent rest s) = statusWord s := rfl
@[simp] theorem statusWord_pushEvent : statusWord (pushEvent e s) = statusWord s := rfl
@[simp] theorem irq_answer : irq (answer r s) = irq s := rfl
@[simp] theorem irq_tick : irq (tick s) = irq s := rfl
@[simp] theorem irq_takeEvent : irq (takeEvent rest s) = irq s := rfl
@[simp] theorem irq_pushEvent : irq (pushEvent e s) = irq s := rfl
@[simp] theorem busy_answer : busy (answer r s) = busy s := rfl
@[simp] theorem busy_tick : busy (tick s) = busy s := rfl
@[simp] theorem busy_takeEvent : busy (takeEvent rest s) = busy s := rfl
@[simp] theorem busy_pushEvent : busy (pushEvent e s) = busy s := rfl

end

end Sys2Proof.Machine
end

