-- ==== Sys2Proof/Laws/Ops.lean ====
section
/-! SUPPORT. The specification lemmas of acceptance: every command's meaning is `accept` with its own acceptance effects, and
`accept` either records one error or gives the accepted state. -/

namespace Sys2Proof.Machine

/-- Every arm of `exec` is the shared acceptance with the command's own effects. -/
theorem exec_eq_accept (i : Instr) (s : State) : exec i s = accept i (ownAcceptance i) s := by
  cases i <;> rfl

/-- A refused command: the error record and nothing else (R215). -/
theorem exec_refused {i : Instr} {s : State} {c : ErrCode} (h : firstRefusal i s = some c) :
    exec i s = .next (raiseError c s) := by
  rw [exec_eq_accept, accept, h]

/-- An accepted command: the common effects, then its own (R211). -/
theorem exec_accepted {i : Instr} {s : State} (h : firstRefusal i s = none) :
    exec i s = .next (ownAcceptance i (acceptCommon i s)) := by
  rw [exec_eq_accept, accept, h]

/-- All that a command written to CMD can do in the host's step (R210). -/
theorem exec_cases {i : Instr} {s t : State} (h : exec i s = .next t) :
    (∃ c, firstRefusal i s = some c ∧ t = raiseError c s) ∨
      (firstRefusal i s = none ∧ t = ownAcceptance i (acceptCommon i s)) := by
  cases hr : firstRefusal i s with
  | some c => rw [exec_refused hr] at h; cases h; exact .inl ⟨c, rfl, rfl⟩
  | none => rw [exec_accepted hr] at h; cases h; exact .inr ⟨rfl, rfl⟩

/-- Exactly the conditions under which a command is accepted (R211). -/
theorem firstRefusal_none_iff (i : Instr) (s : State) :
    firstRefusal i s = none ↔
      s.pend = none ∧ stateError i s.fsm = none ∧ (needsKey i = true → s.keyWr = 0b1111#4) ∧
        (needsDin i = true → s.dinWr = 0b1111#4) ∧ (isMsgStart i = true → s.blkcnt ≠ 0#16) := by
  unfold firstRefusal busy allWritten
  cases s.pend <;> cases stateError i s.fsm <;> cases needsKey i <;> cases needsDin i <;> cases isMsgStart i <;>
    by_cases hk : s.keyWr = 0b1111#4 <;> by_cases hd : s.dinWr = 0b1111#4 <;> by_cases hb : s.blkcnt = 0#16 <;>
    simp_all

/-- While a command is pending every command is refused with BUSY (R247). -/
theorem firstRefusal_busy {i : Instr} {s : State} (h : s.pend ≠ none) : firstRefusal i s = some .busy := by
  cases hp : s.pend with
  | none => exact absurd hp h
  | some p => simp [firstRefusal, busy, hp]

/-- An acceptance leaves its command pending, latched from the state before it (R41). -/
theorem ownAcceptance_pend (i : Instr) (s : State) : (ownAcceptance i s).pend = s.pend := by
  cases i <;> rfl

/-- No acceptance changes the sequencer state (R240). -/
theorem ownAcceptance_fsm (i : Instr) (s : State) : (ownAcceptance i s).fsm = s.fsm := by
  cases i <;> rfl

/-- No acceptance changes the round keys (R40). -/
theorem ownAcceptance_rk (i : Instr) (s : State) : (ownAcceptance i s).rk = s.rk := by
  cases i <;> rfl

end Sys2Proof.Machine
end

