-- ==== Sys2Proof/Laws/Step.lean ====
section
/-! SUPPORT. What one step can do, said once: the forward lemma of each kind of step, and the inversion lemmas of a register
write, a transaction and a step. -/

namespace Sys2Proof.Machine

/-- A due completion, with no reset coming, is the core's step (R212). -/
theorem step_completion {s : State} (hd : completionDue s = true) (hr : resetNext s = false) : step s = .next (complete s) := by
  simp [step, agentStep, coreStep, hd, hr]

/-- A coming reset is the next step, whatever is due (R340). -/
theorem step_reset {s : State} {rest : List Event} (h : s.script = .reset :: rest) :
    step s = .next (resetCore (takeEvent rest s)) := by
  simp [step, agentStep, hostStep, resetNext, h]

/-- The host's transaction, when no completion is due (R72). -/
theorem step_access {s : State} {t : Txn} {rest : List Event} (h : s.script = .access t :: rest)
    (hd : completionDue s = false) : step s = access t (tick (takeEvent rest s)) := by
  simp [step, agentStep, hostStep, hd, h]

/-- A step in which the host does nothing. -/
theorem step_idle {s : State} {rest : List Event} (h : s.script = .idle :: rest) (hd : completionDue s = false) :
    step s = .next (tick (takeEvent rest s)) := by
  simp [step, agentStep, hostStep, hd, h]

/-- A poll is a read of STATUS, and stays the next event as long as BUSY = 1 (R107). -/
theorem step_poll {s : State} {rest : List Event} (h : s.script = .pollBusy :: rest) (hd : completionDue s = false) :
    step s = .next (answer (.readData (statusWord s) false) (tick (if busy s then s else takeEvent rest s))) := by
  have hs : step s = access (.read (offsetOf .status)) (tick (if busy s then s else takeEvent rest s)) := by
    simp [step, agentStep, hostStep, hd, h]
  rw [hs]
  cases busy s <;> rfl

/-- With no event left the core waits (R343). -/
theorem step_waiting {s : State} (h : s.script = []) (hd : completionDue s = false) : step s = .next (tick s) := by
  simp [step, agentStep, hostStep, hd, h]

/-- All that a step can do. -/
theorem step_cases {s t : State} (h : step s = .next t) :
    (completionDue s = true ∧ resetNext s = false ∧ t = complete s) ∨
      (∃ rest, s.script = .reset :: rest ∧ t = resetCore (takeEvent rest s)) ∨
      (completionDue s = false ∧ s.script = [] ∧ t = tick s) ∨
      (∃ rest, completionDue s = false ∧ s.script = .idle :: rest ∧ t = tick (takeEvent rest s)) ∨
      (∃ rest, completionDue s = false ∧ s.script = .pollBusy :: rest ∧
        t = answer (.readData (statusWord s) false) (tick (if busy s then s else takeEvent rest s))) ∨
      ∃ x rest, completionDue s = false ∧ s.script = .access x :: rest ∧ access x (tick (takeEvent rest s)) = .next t := by
  cases hs : s.script with
  | nil =>
    cases hd : completionDue s with
    | true =>
      have hr : resetNext s = false := by simp [resetNext, hs]
      rw [step_completion hd hr] at h; cases h; exact .inl ⟨rfl, hr, rfl⟩
    | false => rw [step_waiting hs hd] at h; cases h; exact .inr (.inr (.inl ⟨rfl, rfl, rfl⟩))
  | cons e rest =>
    cases e with
    | reset => rw [step_reset hs] at h; cases h; exact .inr (.inl ⟨rest, rfl, rfl⟩)
    | idle =>
      cases hd : completionDue s with
      | true =>
        have hr : resetNext s = false := by simp [resetNext, hs]
        rw [step_completion hd hr] at h; cases h; exact .inl ⟨rfl, hr, rfl⟩
      | false => rw [step_idle hs hd] at h; cases h; exact .inr (.inr (.inr (.inl ⟨rest, rfl, rfl, rfl⟩)))
    | pollBusy =>
      cases hd : completionDue s with
      | true =>
        have hr : resetNext s = false := by simp [resetNext, hs]
        rw [step_completion hd hr] at h; cases h; exact .inl ⟨rfl, hr, rfl⟩
      | false => rw [step_poll hs hd] at h; cases h; exact .inr (.inr (.inr (.inr (.inl ⟨rest, rfl, rfl, rfl⟩))))
    | access x =>
      cases hd : completionDue s with
      | true =>
        have hr : resetNext s = false := by simp [resetNext, hs]
        rw [step_completion hd hr] at h; cases h; exact .inl ⟨rfl, hr, rfl⟩
      | false => rw [step_access hs hd] at h; exact .inr (.inr (.inr (.inr (.inr ⟨x, rest, rfl, rfl, h⟩))))

/-- All that a transaction can do: refused with BUS, a read, or a register write with its acknowledgement. -/
theorem access_cases {x : Txn} {s t : State} (h : access x s = .next t) :
    (∃ a, t = refuseAccess a s) ∨
      (∃ off r, x = .read off ∧ decodeOffset off = .ok r ∧ t = answer (.readData (readReg r s) false) s) ∨
      ∃ off v r, x = .write off v 0xF#4 ∧ decodeOffset off = .ok r ∧
        writeReg r v (answer (.writeDone false) s) = .next t := by
  cases x with
  | read off =>
    cases ho : decodeOffset off with
    | error e => simp only [access, ho, Host.Outcome.next.injEq] at h; exact .inl ⟨_, h.symm⟩
    | ok r => simp only [access, ho, Host.Outcome.next.injEq] at h; exact .inr (.inl ⟨off, r, rfl, ho, h.symm⟩)
  | write off v strb =>
    cases ho : decodeOffset off with
    | error e => simp only [access, ho, Host.Outcome.next.injEq] at h; exact .inl ⟨_, h.symm⟩
    | ok r =>
      by_cases hs : strb = 0xF#4
      · subst hs
        simp only [access, ho] at h
        exact .inr (.inr ⟨off, v, r, rfl, ho, h⟩)
      · simp only [access, ho, if_neg hs, Host.Outcome.next.injEq] at h
        exact .inl ⟨_, h.symm⟩

/-- All that a word written to CMD can do (R210, R233). -/
theorem writeCmd_cases {v : Word} {s t : State} (h : writeCmd v s = .next t) :
    (∃ c, t = raiseError c s) ∨ ∃ i, decode v = .ok i ∧ firstRefusal i s = none ∧ t = ownAcceptance i (acceptCommon i s) := by
  cases hd : decode v with
  | error e => simp only [writeCmd, hd, Host.Outcome.next.injEq] at h; exact .inl ⟨_, h.symm⟩
  | ok i =>
    simp only [writeCmd, hd] at h
    rcases exec_cases h with ⟨c, -, rfl⟩ | ⟨hr, rfl⟩
    · exact .inl ⟨c, rfl⟩
    · exact .inr ⟨i, rfl, hr, rfl⟩

/-- The completion of a pending command (R212). -/
theorem complete_pending {s : State} {p : Pending} (h : s.pend = some p) : complete s = finish (ownCompletion p.op p s) := by
  simp [complete, h]

/-- A due completion has a pending command and nothing left to wait. -/
theorem completionDue_iff (s : State) : completionDue s = true ↔ s.pend ≠ none ∧ s.wait = 0 := by
  cases h : s.pend <;> simp [completionDue, h]

/-- The very next step after placing an event takes it. -/
theorem completionDue_withNextEvent (e : Event) (s : State) : completionDue (withNextEvent e s) = false := by
  cases h : completionDue s <;> simp_all [completionDue, withNextEvent]

end Sys2Proof.Machine
end

