-- ==== Sys2Proof/Laws/Bus.lean ====
section
/-! SUPPORT. The register window: an offset decodes exactly when it is legal (20_memory.md rule R73), a transaction at a
register's own offset reads or writes that register, and every transaction answers a next state. -/

namespace Sys2Proof.Machine

/-- The offset decoder answers a register for that register's offset. -/
@[simp] theorem decodeOffset_offsetOf (r : Reg) : decodeOffset (offsetOf r) = .ok r := by
  cases r <;> first | rfl | (rename_i j; fin_cases j <;> rfl)

/-- The offset decoder accepts exactly the legal offsets (R73). -/
theorem decodeOffset_accepts_iff (off : Offset) : (decodeOffset off).toBool = true ↔ legalOffset off := by
  revert off; decide +kernel

theorem decodeOffset_of_legal {off : Offset} (h : legalOffset off) : ∃ r, decodeOffset off = .ok r := by
  have := (decodeOffset_accepts_iff off).2 h
  cases hd : decodeOffset off with
  | ok r => exact ⟨r, rfl⟩
  | error e => rw [hd] at this; cases this

theorem decodeOffset_of_illegal {off : Offset} (h : ¬ legalOffset off) : ∃ e, decodeOffset off = .error e := by
  have := mt (decodeOffset_accepts_iff off).1 h
  cases hd : decodeOffset off with
  | ok r => rw [hd] at this; exact absurd rfl this
  | error e => exact ⟨e, rfl⟩

/-- A read at a register's offset (R77). -/
theorem access_read_reg (r : Reg) (s : State) :
    access (.read (offsetOf r)) s = .next (answer (.readData (readReg r s) false) s) := by
  simp [access]

/-- A write at a register's offset (R78). -/
theorem access_write_reg (r : Reg) (v : Word) (s : State) :
    access (.write (offsetOf r) v 0xF#4) s = writeReg r v (answer (.writeDone false) s) := by
  simp [access]

/-- A register write answers a next state and leaves the acknowledgement (R78). -/
theorem writeReg_next (r : Reg) (v : Word) (s : State) : ∃ t, writeReg r v s = .next t ∧ t.resp = s.resp := by
  cases r
  case cmd =>
    simp only [writeReg, writeCmd]
    cases decode v with
    | error e => exact ⟨_, rfl, raiseError_resp _ _⟩
    | ok i =>
      cases h : firstRefusal i s with
      | none => exact ⟨_, exec_accepted h, by cases i <;> rfl⟩
      | some c => exact ⟨_, exec_refused h, raiseError_resp _ _⟩
  all_goals exact ⟨_, rfl, rfl⟩

end Sys2Proof.Machine
end

