-- ==== Sys2Proof/Laws/Completion.lean ====
section
/-! SUPPORT. What the completion of a command can do (43_commands.md rules R212 and R220 to R232), said once, field by field, so
that later proofs need not unfold the thirteen completions. -/

namespace Sys2Proof.Machine

/-- The sequencer state after a completion (R240). -/
theorem ownCompletion_fsm (i : Instr) (p : Pending) (s : State) :
    (ownCompletion i p s).fsm =
      match i with
      | .expandKey => .ready
      | .msgStartEnc => .msgEnc
      | .msgStartDec => .msgDec
      | .msgNext => if s.blkidx + 1#16 = s.msgCnt then .idle else s.fsm
      | .msgAbort => if s.fsm.inMessage then .idle else s.fsm
      | .zeroize => .idle
      | .nop | .encBlock | .decBlock | .sbox | .invSbox | .gfInv | .gfMul => s.fsm := by
  cases i <;> first
    | rfl
    | (simp only [ownCompletion, completeMsgNext]; split <;> simp_all [storeDout, endMessage])
    | (simp only [ownCompletion, completeMsgAbort]; split <;> simp_all)

/-- The round keys after a completion (R40). -/
theorem ownCompletion_rk (i : Instr) (p : Pending) (s : State) :
    (ownCompletion i p s).rk =
      match i with
      | .expandKey | .msgStartEnc | .msgStartDec => keyExpansion p.lkey
      | .msgNext => if s.blkidx + 1#16 = s.msgCnt then Schedule.zero else s.rk
      | .msgAbort => if s.fsm.inMessage then Schedule.zero else s.rk
      | .zeroize => Schedule.zero
      | .nop | .encBlock | .decBlock | .sbox | .invSbox | .gfInv | .gfMul => s.rk := by
  cases i <;> first
    | rfl
    | (simp only [ownCompletion, completeMsgNext]; split <;> simp_all [storeDout, endMessage])
    | (simp only [ownCompletion, completeMsgAbort]; split <;> simp_all)

/-- BLKIDX after a completion (R38). -/
theorem ownCompletion_blkidx (i : Instr) (p : Pending) (s : State) :
    (ownCompletion i p s).blkidx =
      match i with
      | .msgStartEnc | .msgStartDec | .zeroize => 0#16
      | .msgNext => s.blkidx + 1#16
      | .nop | .expandKey | .encBlock | .decBlock | .msgAbort | .sbox | .invSbox | .gfInv | .gfMul => s.blkidx := by
  cases i <;> first
    | rfl
    | (simp only [ownCompletion, completeMsgNext]; split <;> rfl)
    | (simp only [ownCompletion, completeMsgAbort]; split <;> rfl)

/-- `msg_cnt` after a completion: only ZEROIZE's clears it (R45). -/
theorem ownCompletion_msgCnt (i : Instr) (p : Pending) (s : State) :
    (ownCompletion i p s).msgCnt = if i = .zeroize then 0#16 else s.msgCnt := by
  cases i <;> first
    | rfl
    | (simp only [ownCompletion, completeMsgNext]; split <;> rfl)
    | (simp only [ownCompletion, completeMsgAbort]; split <;> rfl)

/-- DOUT after a completion: only a DOUT-producing command writes it (R35). -/
theorem ownCompletion_dout_of_not_producesDout {i : Instr} (h : producesDout i = false) (p : Pending) (s : State) :
    (ownCompletion i p s).dout = s.dout := by
  cases i <;> first
    | rfl
    | exact absurd h (by decide)
    | (simp only [ownCompletion, completeMsgAbort]; split <;> rfl)

/-- What no completion changes: the error record, IRQ_EN, DONE before the common finish, the written masks, the host's
registers, and the model's own fields (R212, R307). -/
theorem ownCompletion_frame (i : Instr) (p : Pending) (s : State) :
    (ownCompletion i p s).err = s.err ∧ (ownCompletion i p s).errcode = s.errcode ∧ (ownCompletion i p s).irqEn = s.irqEn ∧
      (ownCompletion i p s).done = s.done ∧ (ownCompletion i p s).keyWr = s.keyWr ∧ (ownCompletion i p s).dinWr = s.dinWr ∧
      (ownCompletion i p s).key = s.key ∧ (ownCompletion i p s).din = s.din ∧ (ownCompletion i p s).blkcnt = s.blkcnt ∧
      (ownCompletion i p s).gfb = s.gfb ∧ (ownCompletion i p s).pend = s.pend ∧ (ownCompletion i p s).wait = s.wait ∧
      (ownCompletion i p s).accepts = s.accepts ∧ (ownCompletion i p s).script = s.script ∧
      (ownCompletion i p s).resp = s.resp := by
  cases i <;> first
    | exact ⟨rfl, rfl, rfl, rfl, rfl, rfl, rfl, rfl, rfl, rfl, rfl, rfl, rfl, rfl, rfl⟩
    | (simp only [ownCompletion, completeMsgNext]; split <;>
        exact ⟨rfl, rfl, rfl, rfl, rfl, rfl, rfl, rfl, rfl, rfl, rfl, rfl, rfl, rfl, rfl⟩)
    | (simp only [ownCompletion, completeMsgAbort]; split <;>
        exact ⟨rfl, rfl, rfl, rfl, rfl, rfl, rfl, rfl, rfl, rfl, rfl, rfl, rfl, rfl, rfl⟩)

end Sys2Proof.Machine
end

