-- ==== Sys2Proof/Laws/Gf.lean ====
section
/-! SUPPORT. GF(2^8) (40_gf_arith.md): `xtime` is linear, and so is `gmul` in its first argument. -/

namespace Sys2Proof.Machine

/-- `xtime` distributes over field addition. -/
theorem xtime_xor (a b : Byte) : xtime (a ^^^ b) = xtime a ^^^ xtime b := by
  unfold xtime
  rw [BitVec.getLsbD_xor, BitVec.shiftLeft_xor_distrib]
  generalize a.getLsbD 7 = p, b.getLsbD 7 = q, a <<< 1 = x, b <<< 1 = y
  cases p <;> cases q <;> ext i hi <;> simp <;> grind

/-- The loop of R123 is linear in the multiplicand. -/
theorem gmulLoop_xor (b : Byte) (n i : Nat) (p q a c : Byte) :
    gmulLoop b n i (p ^^^ q) (a ^^^ c) = gmulLoop b n i p a ^^^ gmulLoop b n i q c := by
  induction n generalizing i p q a c with
  | zero => rfl
  | succ n ih =>
    simp only [gmulLoop, xtime_xor]
    rw [← ih]
    congr 1
    split
    · ext i hi; simp; grind
    · rfl

/-- Multiplication distributes over field addition on the left (R124). -/
theorem gmul_xor_left (a c b : Byte) : gmul (a ^^^ c) b = gmul a b ^^^ gmul c b := by
  rw [gmul, gmul, gmul, ← gmulLoop_xor]
  rfl

end Sys2Proof.Machine
end

