-- ==== Sys2Proof/Laws/Lanes.lean ====
section
/-! SUPPORT. Small lemmas of the value types and byte lanes: reading and writing one of four, equality of blocks, and that
`wordOf` and `bytesOf`, `blockOf` and `wordsOf` undo each other (00_scope.md rule R11, 10_state.md rule R44). -/

namespace Sys2Proof.Machine

section

variable {α β : Type}

@[simp] theorem quad_get_set_same (q : Quad α) (j : Fin 4) (x : α) : (q.set j x).get j = x := by
  fin_cases j <;> rfl

theorem quad_get_set_other (q : Quad α) {j k : Fin 4} (x : α) (h : k ≠ j) : (q.set j x).get k = q.get k := by
  fin_cases j <;> fin_cases k <;> first | rfl | exact absurd rfl h

/-- Four lanes are equal when each is. -/
theorem quad_ext_get {p q : Quad α} (h : ∀ j, p.get j = q.get j) : p = q := by
  obtain ⟨a, b, c, d⟩ := p
  obtain ⟨a', b', c', d'⟩ := q
  have h0 := h 0
  have h1 := h 1
  have h2 := h 2
  have h3 := h 3
  simp only [Quad.get] at h0 h1 h2 h3
  rw [h0, h1, h2, h3]

@[simp] theorem quad_get_map (f : α → β) (q : Quad α) (j : Fin 4) : (q.map f).get j = f (q.get j) := by
  fin_cases j <;> rfl

@[simp] theorem quad_get_ofFn (f : Fin 4 → α) (j : Fin 4) : (Quad.ofFn f).get j = f j := by
  fin_cases j <;> rfl

@[simp] theorem quad_get_const (x : α) (j : Fin 4) : (Quad.const x).get j = x := by
  fin_cases j <;> rfl

end

/-- Blocks are equal when every entry is. -/
theorem block_ext_entry {a b : Block} (h : ∀ r c, a.entry r c = b.entry r c) : a = b :=
  quad_ext_get fun c => quad_ext_get fun r => h r c

@[simp] theorem entry_mapBytes (f : Byte → Byte) (b : Block) (r c : Fin 4) : (b.mapBytes f).entry r c = f (b.entry r c) := by
  simp [Block.mapBytes, Block.entry]

@[simp] theorem bytesOf_wordOf (c : Column) : bytesOf (wordOf c) = c := by
  obtain ⟨a, b, c, d⟩ := c
  simp only [bytesOf, wordOf, Quad.mk.injEq]
  refine ⟨?_, ?_, ?_, ?_⟩ <;> apply BitVec.eq_of_getLsbD_eq <;> intro i hi <;>
    simp only [BitVec.getLsbD_extractLsb', BitVec.getLsbD_append, hi, decide_true, Bool.true_and]
  · rw [if_neg (by omega), if_neg (by omega), if_neg (by omega)]; congr 1; omega
  · rw [if_neg (by omega), if_neg (by omega), if_pos (by omega)]; congr 1; omega
  · rw [if_neg (by omega), if_pos (by omega)]; congr 1; omega
  · rw [if_pos (by omega)]; congr 1; omega

@[simp] theorem wordOf_bytesOf (w : Word) : wordOf (bytesOf w) = w := by
  apply BitVec.eq_of_getLsbD_eq
  intro i hi
  simp only [wordOf, bytesOf, BitVec.getLsbD_append, BitVec.getLsbD_extractLsb']
  split
  · simp_all
  · split
    · rw [decide_eq_true (by omega), Bool.true_and]; congr 1; omega
    · split <;> (rw [decide_eq_true (by omega), Bool.true_and]; congr 1; omega)
@[simp] theorem blockOf_wordsOf (b : Block) : blockOf (wordsOf b) = b := by
  obtain ⟨a, b, c, d⟩ := b
  simp [blockOf, wordsOf, Quad.map]

@[simp] theorem wordsOf_blockOf (q : Quad Word) : wordsOf (blockOf q) = q := by
  obtain ⟨a, b, c, d⟩ := q
  simp [blockOf, wordsOf, Quad.map]

end Sys2Proof.Machine
end

