-- ==== Sys2Proof/Laws/PerInstr.lean ====
section
/-! SUPPORT. Facts about every instruction as written, one lemma per constructor. -/

namespace Sys2Proof.Laws.LegalWord

/-- An instruction is well formed and its word is legal: RES is zero, OP is its opcode (R100, R101). -/
def Statement (i : Instr) : Prop :=
  i.wellFormed = true ∧ legalWord (encode i) ∧ (encode i).extractLsb' 4 28 = 0#28 ∧ (encode i).extractLsb' 0 4 = opcode i

theorem nop : Statement .nop := by unfold Statement; decide
theorem expandKey : Statement .expandKey := by unfold Statement; decide
theorem encBlock : Statement .encBlock := by unfold Statement; decide
theorem decBlock : Statement .decBlock := by unfold Statement; decide
theorem msgStartEnc : Statement .msgStartEnc := by unfold Statement; decide
theorem msgStartDec : Statement .msgStartDec := by unfold Statement; decide
theorem msgNext : Statement .msgNext := by unfold Statement; decide
theorem msgAbort : Statement .msgAbort := by unfold Statement; decide
theorem sbox : Statement .sbox := by unfold Statement; decide
theorem invSbox : Statement .invSbox := by unfold Statement; decide
theorem gfInv : Statement .gfInv := by unfold Statement; decide
theorem gfMul : Statement .gfMul := by unfold Statement; decide
theorem zeroize : Statement .zeroize := by unfold Statement; decide

end Sys2Proof.Laws.LegalWord
end

