-- ==== Sys2Proof/Tests/Slice0.lean ====
section
/-! SUPPORT. Small tests. Expected values come from spec/95_test_vectors.md (its vectors V1 to V28 and its tables), from the
rules' own tables, or from a rule read by hand; none was taken from the model. Then one witness for each statement with
hypotheses: a concrete state that meets them, clause by clause. -/

namespace Sys2Proof.Tests

open Sys2Proof.Machine

/-! Helpers. -/

/-- A field of the next state, if there is one. -/
def after {α : Type} (o : Host.Outcome State Fault Refusal) (f : State → α) : Option α :=
  match o with
  | .next s => some (f s)
  | .fault _ => none
  | .refused _ => none

/-- A block from its four words. -/
def blk (w0 w1 w2 w3 : Word) : Block := blockOf ⟨w0, w1, w2, w3⟩

/-- `000102030405060708090a0b0c0d0e0f`. -/
def counting : Block := blk 0x00010203 0x04050607 0x08090a0b 0x0c0d0e0f

/-- `00112233445566778899aabbccddeeff`. -/
def elevens : Block := blk 0x00112233 0x44556677 0x8899aabb 0xccddeeff

/-- All operands written, no command pending, in sequencer state `f`. -/
def loaded (f : Fsm) : State :=
  { State.reset with
    fsm := f
    key := wordsOf counting
    din := wordsOf elevens
    keyWr := 0b1111#4
    dinWr := 0b1111#4
    blkcnt := 2#16
    gfb := 0x83#8
    doutValid := true }

/-- No operand written, no command pending, in sequencer state `f`. -/
def bare (f : Fsm) : State := { State.reset with fsm := f }

/-- Command `i` pending with operands `k`, `d`, `g`, its completion due, in sequencer state `f`. -/
def due (i : Instr) (f : Fsm) (k d : Block) (g : Byte) : State :=
  { State.reset with fsm := f, pend := some ⟨i, k, d, g⟩ }

/-- EXPAND_KEY pending, with one step left to wait. -/
def waiting : State := { due .expandKey .idle counting Block.zero 0x00 with wait := 1, keyWr := 0b1111#4 }

/-- A state whose next event is `e`. -/
def facing (e : Event) (s : State) : State := { s with script := [e] }

/-! Decoding: one word for every constructor, bit by bit from R100 and R103. -/

theorem test_decode_nop : decode 0b00000000000000000000000000000000#32 = .ok .nop := by decide
theorem test_decode_expand_key : decode 0b00000000000000000000000000000001#32 = .ok .expandKey := by decide
theorem test_decode_enc_block : decode 0b00000000000000000000000000000010#32 = .ok .encBlock := by decide
theorem test_decode_dec_block : decode 0b00000000000000000000000000000011#32 = .ok .decBlock := by decide
theorem test_decode_msg_start_enc : decode 0b00000000000000000000000000000100#32 = .ok .msgStartEnc := by decide
theorem test_decode_msg_start_dec : decode 0b00000000000000000000000000000101#32 = .ok .msgStartDec := by decide
theorem test_decode_msg_next : decode 0b00000000000000000000000000000110#32 = .ok .msgNext := by decide
theorem test_decode_msg_abort : decode 0b00000000000000000000000000000111#32 = .ok .msgAbort := by decide
theorem test_decode_sbox : decode 0b00000000000000000000000000001000#32 = .ok .sbox := by decide
theorem test_decode_inv_sbox : decode 0b00000000000000000000000000001001#32 = .ok .invSbox := by decide
theorem test_decode_gf_inv : decode 0b00000000000000000000000000001010#32 = .ok .gfInv := by decide
theorem test_decode_gf_mul : decode 0b00000000000000000000000000001011#32 = .ok .gfMul := by decide
theorem test_decode_zeroize : decode 0b00000000000000000000000000001100#32 = .ok .zeroize := by decide
theorem test_decode_table_word : decodeTableWord 32 0xC = some .zeroize := by decide
theorem test_decode_table_word_reserved : decodeTableWord 32 0xE = none := by decide

/-! What well-formedness refuses, each check once, and the decoder with it (R73, R101, R233). -/

theorem test_ill_formed_opcode : ¬ legalWord 0x0000000D#32 ∧ decode 0x0000000D#32 = .error .reservedOpcode := by decide
theorem test_ill_formed_reserved : ¬ legalWord 0x00000012#32 ∧ decode 0x00000012#32 = .error .reservedBits := by decide
theorem test_ill_formed_top_bit : ¬ legalWord 0x80000000#32 ∧ decode 0x80000000#32 = .error .reservedBits := by decide
theorem test_ill_formed_misaligned : ¬ (Txn.read 0x11#8).WellFormed ∧ decodeOffset 0x11#8 = .error .misaligned := by decide
theorem test_ill_formed_unmapped : ¬ (Txn.read 0x4C#8).WellFormed ∧ decodeOffset 0x4C#8 = .error .unmapped := by decide
theorem test_ill_formed_strobe : ¬ (Txn.write 0x10#8 0x11223344#32 0x3#4).WellFormed := by decide
theorem test_well_formed_last_offset : (Txn.read 0x48#8).WellFormed ∧ decodeOffset 0x48#8 = .ok .gfb := by decide

/-! The bus and STATUS (V1 to V10). -/

theorem test_v1_status : statusWord State.reset = 0x00000000#32 ∧ irq State.reset = false := by decide
theorem test_v2_id : after (access (.read 0x00) State.reset) (·.resp) = some (some (.readData 0x41455331 false)) := by decide
theorem test_v4_clear : after (access (.write 0x0C 0xFFFFFFFF 0xF) { State.reset with done := true }) statusWord = some 0 := by
  decide
theorem test_v5_key : after (access (.write 0x10 0xdeadbeef 0xF) State.reset) statusWord = some 0x00000100 := by decide
theorem test_v5_key_reads_zero : after (access (.read 0x10) (loaded .idle)) (·.resp) = some (some (.readData 0 false)) := by
  decide
theorem test_v6_id_write : after (access (.write 0x00 0x5 0xF) State.reset) (fun s => (statusWord s, readReg .id s)) =
    some (0, 0x41455331) := by decide
theorem test_v7_blkcnt : after (access (.write 0x40 0xFFFFFFFF 0xF) State.reset) (readReg .blkcnt) = some 0x0000ffff := by decide
theorem test_v7_gfb : after (access (.write 0x48 0x000001FF 0xF) State.reset) (readReg .gfb) = some 0x000000ff := by decide
theorem test_v7_ctrl : after (access (.write 0x04 0xFFFFFFFF 0xF) State.reset) (readReg .ctrl) = some 0x00000001 := by decide
theorem test_v8_strobe : after (access (.write 0x10 0x11223344 0x3) State.reset) (fun s => (statusWord s, s.resp)) =
    some (0x00080004, some (.writeDone true)) := by decide
theorem test_v9_misaligned : after (access (.write 0x11 0x0 0xF) State.reset) statusWord = some 0x00080004 := by decide
theorem test_v10_unmapped : after (access (.read 0x4C) State.reset) (fun s => (statusWord s, s.resp)) =
    some (0x00080004, some (.readData 0 true)) := by decide
theorem test_v16_illegal : after (access (.write 0x08 0xe 0xF) { bare .ready with keyWr := 0xF, done := true }) statusWord =
    some 0x00010f0e := by decide
theorem test_v17_illegal_before_busy : after (access (.write 0x08 0x12 0xF) waiting) statusWord = some 0x00010f05 := by decide
theorem test_v26_irq : irq { State.reset with irqEn := true, done := true } = true := by decide
theorem test_first_error_is_kept : statusWord (raiseError .keyLength (raiseError .noKey State.reset)) = 0x00040004#32 := by decide
theorem test_byte_order : bytesOf 0x2b7e1516#32 = ⟨0x2b, 0x7e, 0x15, 0x16⟩ ∧ wordOf ⟨0x2b, 0x7e, 0x15, 0x16⟩ = 0x2b7e1516#32 := by
  decide

/-! The commands: acceptance and completion, at most two tests each (V3, V11 to V28 and the table of section 5). -/

theorem test_nop_v3 : statusWord (complete (due .nop .idle Block.zero Block.zero 0)) = 0x00000002#32 := by decide
theorem test_nop_accepted : after (exec .nop State.reset) statusWord = some 0x00000001 := by decide
theorem test_expand_key_v13 : after (exec .expandKey { loaded .idle with keyWr := 0x7, doutValid := false }) statusWord =
    some 0x0005f704 := by decide
theorem test_expand_key_v28 :
    statusWord (complete { due .expandKey .ready counting Block.zero 0 with keyWr := 0xF }) = 0x00000f0a#32 := by decide
theorem test_enc_block_v11 : after (exec .encBlock { loaded .idle with keyWr := 0, doutValid := false }) statusWord =
    some 0x0004f004 := by decide
theorem test_enc_block_v14 : after (exec .encBlock { waiting with dinWr := 0xF }) statusWord = some 0x0002ff05 := by decide
theorem test_dec_block_v15 : after (exec .decBlock { bare .ready with keyWr := 0xF, done := true }) statusWord =
    some 0x00060f0e := by decide
theorem test_dec_block_accepted : after (exec .decBlock (loaded .ready)) (fun s => (statusWord s, s.pend)) =
    some (0x00000f09, some ⟨.decBlock, Block.zero, elevens, 0⟩) := by decide
theorem test_msg_start_enc_v21 : after (exec .msgStartEnc { State.reset with keyWr := 0x7 }) statusWord = some 0x00050704 := by
  decide
theorem test_msg_start_enc_takes_the_key : after (exec .msgStartEnc (loaded .idle)) (fun s => (s.key, s.keyWr, s.msgCnt)) =
    some (⟨0, 0, 0, 0⟩, 0, 2) := by decide
theorem test_msg_start_dec_v20 : after (exec .msgStartDec { State.reset with keyWr := 0xF }) statusWord = some 0x00070f04 := by
  decide
theorem test_msg_start_dec_completed :
    statusWord (complete (due .msgStartDec .idle counting Block.zero 0)) = 0x0000003a#32 := by decide
theorem test_msg_next_v19 : after (exec .msgNext State.reset) statusWord = some 0x00030004 := by decide
theorem test_msg_next_last_block :
    let s := { due .msgNext .msgEnc Block.zero elevens 0 with msgCnt := 1, blkcnt := 5 }
    statusWord (complete s) = 0x000000c2#32 ∧ (complete s).blkidx = 1#16 ∧ (complete s).rk = Schedule.zero := by decide +kernel
theorem test_msg_abort_v23 :
    statusWord (complete { due .msgAbort .ready Block.zero Block.zero 0 with keyWr := 0xF }) = 0x00000f0a#32 := by decide
theorem test_msg_abort_v24 :
    let s := { due .msgAbort .msgEnc Block.zero Block.zero 0 with msgCnt := 3, blkidx := 1, doutValid := true }
    statusWord (complete s) = 0x00000042#32 ∧ readReg .blkidx (complete s) = 1#32 := by decide
theorem test_sbox_row : (complete (due .sbox .idle Block.zero counting 0)).dout =
    ⟨0x637c777b, 0xf26b6fc5, 0x3001672b, 0xfed7ab76⟩ := by decide +kernel
theorem test_sbox_sequence_v18 : after (exec .sbox { bare .msgEnc with done := true }) statusWord = some 0x0003001e := by decide
theorem test_inv_sbox_row :
    (complete (due .invSbox .ready Block.zero (blk 0x637c777b 0xf26b6fc5 0x3001672b 0xfed7ab76) 0)).dout =
      wordsOf counting := by decide +kernel
theorem test_inv_sbox_accepted : after (exec .invSbox (loaded .idle)) statusWord = some 0x00000f01 := by decide
theorem test_gf_inv_row : (complete (due .gfInv .idle Block.zero counting 0)).dout =
    ⟨0x00018df6, 0xcb527bd1, 0xe84f29c0, 0xb0e1e5c7⟩ := by decide +kernel
theorem test_gf_inv_block_length : after (exec .gfInv State.reset) statusWord = some 0x00060004 := by decide
theorem test_gf_mul_row :
    (complete (due .gfMul .idle Block.zero (blk 0x57575757 0x800102ff 0x53ca8df6 0x000102fe) 0x83)).dout =
      ⟨0xc1c1c1c1, 0x01831d7f, 0xfbe5cc88, 0x00831dfc⟩ := by decide +kernel
theorem test_gf_mul_latches_gfb : after (exec .gfMul (loaded .ready)) (·.pend) =
    some (some ⟨.gfMul, Block.zero, elevens, 0x83⟩) := by decide
theorem test_zeroize_v25 :
    statusWord (complete { due .zeroize .msgEnc Block.zero Block.zero 0 with err := true, errcode := 4 }) = 0x00040006#32 := by
  decide
theorem test_zeroize_accepted : after (exec .zeroize (loaded .ready)) (fun s => (s.key, s.din, s.gfb, statusWord s)) =
    some (⟨0, 0, 0, 0⟩, ⟨0, 0, 0, 0⟩, 0, 0x00000009) := by decide

/-! The arithmetic, the schedule and the round pipeline (sections 2 to 4). -/

theorem test_xtime : xtime 0x57 = 0xae#8 ∧ xtime 0x80 = 0x1b#8 := by decide
theorem test_gmul : gmul 0x57 0x83 = 0xc1#8 ∧ gmul 0x57 0x13 = 0xfe#8 ∧ gmul 0xff 0xff = 0x13#8 := by decide +kernel
theorem test_ginv : ginv 0x00 = 0x00#8 ∧ ginv 0x53 = 0xca#8 ∧ ginv 0xff = 0x1c#8 := by decide +kernel
theorem test_sbox_byte : sboxByte 0x00 = 0x63#8 ∧ sboxByte 0x53 = 0xed#8 ∧ sboxByte 0xff = 0x16#8 := by decide +kernel
theorem test_inv_sbox_byte : invSboxByte 0x00 = 0x52#8 ∧ invSboxByte 0x63 = 0x00#8 := by decide +kernel
theorem test_mix_column : mixColumn ⟨0xdb, 0x13, 0x53, 0x45⟩ = ⟨0x8e, 0x4d, 0xa1, 0xbc⟩ := by decide +kernel
theorem test_inv_mix_column : invMixColumn ⟨0x4d, 0x7e, 0xbd, 0xf8⟩ = ⟨0x2d, 0x26, 0x31, 0x4c⟩ := by decide +kernel
theorem test_shift_rows : shiftRows counting = blk 0x00050a0f 0x04090e03 0x080d0207 0x0c01060b := by decide
theorem test_inv_shift_rows : invShiftRows counting = blk 0x000d0a07 0x04010e0b 0x0805020f 0x0c090603 := by decide
theorem test_rcon : (rcon 1).a0 = 0x01#8 ∧ (rcon 9).a0 = 0x1b#8 ∧ (rcon 10).a0 = 0x36#8 := by decide
theorem test_schedule_last_key :
    roundKey (blk 0x2b7e1516 0x28aed2a6 0xabf71588 0x09cf4f3c) 10 = blk 0xd014f9a8 0xc9ee2589 0xe13f0cc8 0xb6630ca6 := by
  decide +kernel
theorem test_first_round :
    encRound (blk 0x193de3be 0xa0f4e22b 0x9ac68d2a 0xe9f84808) (blk 0xa0fafe17 0x88542cb1 0x23a33939 0x2a6c7605) =
      blk 0xa49c7ff2 0x689f352b 0x6b5bea43 0x026a5049 := by decide +kernel
theorem test_cipher_s1 :
    cipher Block.zero (keyExpansion Block.zero) = blk 0x66e94bd4 0xef8a2c3b 0x884cfa59 0xca342b2e := by decide +kernel
theorem test_inv_cipher :
    invCipher (blk 0x69c4e0d8 0x6a7b0430 0xd8cdb780 0x70b4c55a) (keyExpansion counting) = elevens := by decide +kernel

/-! The host's side (section 6). -/

theorem test_pad_empty : pad [] = List.replicate 16 0x10#8 := by decide
theorem test_pad_hello : pad [0x68, 0x65, 0x6c, 0x6c, 0x6f] = [0x68, 0x65, 0x6c, 0x6c, 0x6f] ++ List.replicate 11 0x0b#8 := by decide
theorem test_unpad_mixed : unpad (List.replicate 12 0x00#8 ++ [0x03, 0x03, 0x02, 0x03]) = .error .paddingError := by decide
theorem test_unpad_seventeen : unpad (List.replicate 32 0x11#8) = .error .paddingError := by decide
theorem test_base64 :
    base64Encode [0xc9, 0xf4, 0x49, 0xf9, 0x3e, 0x88, 0x57, 0xdc, 0x7d, 0x7d, 0x1d, 0xf7, 0x20, 0xbb, 0x84, 0xdd] =
      "yfRJ+T6IV9x9fR33ILuE3Q==".toList := by decide
theorem test_base64_missing_padding : base64Decode "yfRJ+T6IV9x9fR33ILuE3Q".toList = .error .decodingError := by decide
theorem test_base64_unused_bits : base64Decode ['A', 'B', '=', '='] = .error .decodingError := by decide
theorem test_utf8 : utf8Encode [Char.ofNat 0xe9] = [0xc3#8, 0xa9#8] ∧ utf8Decode [0xc3, 0xa9] = .ok [Char.ofNat 0xe9] := by decide
theorem test_utf8_overlong : utf8Decode [0xc0, 0x80] = .error .decodingError := by decide
theorem test_script_text : scriptText [] [.cmd .zeroize, .r 0x3C] = ["W 08 0000000c".toList, "R 3C".toList] := by decide
theorem test_script_wait : scriptText [1] [.wait, .wait] = ["R 0C".toList, "R 0C".toList, "R 0C".toList] := by decide
theorem test_poll_stays : after (step (facing .pollBusy waiting)) (fun s => (s.script, s.resp)) =
    some ([.pollBusy], some (.readData 0x00000f01 false)) := by decide
theorem test_poll_ends : after (step (facing .pollBusy State.reset)) (fun s => (s.script, s.resp)) =
    some ([], some (.readData 0 false)) := by decide
theorem test_key_too_short : encrypt "hello".toList "short".toList = .error .keyLengthError := by decide
theorem test_length_error : decrypt "AAAA".toList "YELLOW SUBMARINE".toList = .error .lengthError := by decide

/-- The key-sensitivity row of R285 on the vector of section 6: `hello` under `YELLOW SUBMARINE`, read with the zero key. -/
theorem test_wrong_key_padding_error :
    decryptMessage "yfRJ+T6IV9x9fR33ILuE3Q==".toList Block.zero = .error .paddingError := by decide +kernel

/-- The key-sensitivity row of R285 on the same vector, in the row's own form. -/
theorem test_key_sensitive :
    KeySensitive "hello".toList (blk 0x59454c4c 0x4f572053 0x55424d41 0x52494e45) Block.zero := by decide +kernel

/-! Witnesses: for each statement with hypotheses, a state and operands that meet them, clause by clause. -/

/-- DecoderAcceptsExactlyTheLegalWords: the last legal word, the first words past each bound. -/
theorem witness_legal_and_illegal_words :
    legalWord 0x0000000C#32 ∧ ¬ legalWord 0x0000000D#32 ∧ ¬ legalWord 0x00000010#32 ∧ ¬ legalWord 0xFFFFFFFF#32 := by decide

/-- MalformedTransactionIsRefusedWithBus: both clauses, at the bounds of R73. -/
theorem witness_transactions :
    ¬ (Txn.read 0x4C#8).WellFormed ∧ ¬ (Txn.read 0x47#8).WellFormed ∧ ¬ (Txn.write 0x00#8 0#32 0x7#4).WellFormed ∧
      (Txn.read 0x48#8).WellFormed ∧ (Txn.write 0x00#8 0#32 0xF#4).WellFormed := by decide

/-- FirstErrorIsCaptured: with and without an error recorded. -/
theorem witness_error_recorded : State.reset.err = false ∧ (raiseError .bus State.reset).err = true := by decide

/-- OnlyHostClearOrResetEndsAnError: an error kept, cleared by the host, cleared by reset. -/
theorem witness_error_ends :
    let s := raiseError .bus State.reset
    (∃ t, step s = .next t ∧ s.err = true ∧ t.err = true) ∧
      (∃ t, step (facing (.access (.write 0x0C 0x4 0xF)) s) = .next t ∧ completionDue s = false ∧ t.err = false) ∧
      (∃ t, step (facing .reset s) = .next t ∧ (facing .reset s).script = .reset :: [] ∧ t.err = false) :=
  ⟨⟨_, rfl, rfl, rfl⟩, ⟨_, rfl, rfl, rfl⟩, ⟨_, rfl, rfl, rfl⟩⟩

/-- ErrorsComeFromTransactionsOnly: an error from a malformed transaction, and one from a command word. -/
theorem witness_error_raised :
    (∃ t, step (facing (.access (.read 0x4C)) State.reset) = .next t ∧ State.reset.err = false ∧ t.err = true) ∧
      (∃ t, step (facing (.access (.write 0x08 0xF 0xF)) State.reset) = .next t ∧ t.err = true ∧ t.errcode = 0x1#4) :=
  ⟨⟨_, rfl, rfl, rfl⟩, ⟨_, rfl, rfl, rfl⟩⟩

/-- PendingCommandRefusesEveryOtherAndEndsOnlyByCompletionOrReset, and PendingCommandCompletesFromItsLatchedOperands: a
command that stays pending, one that completes, one that a reset drops; none of the coming events is a reset. -/
theorem witness_pending :
    (∃ p, waiting.pend = some p ∧ ∀ e ∈ waiting.script.take (waiting.wait + 1), e ≠ Event.reset) ∧
      (∃ t, step waiting = .next t ∧ t.pend = waiting.pend) ∧
      (∃ t, step (due .nop .idle Block.zero Block.zero 0) = .next t ∧ t.pend = none) ∧
      (∃ t, step (facing .reset waiting) = .next t ∧ t.pend = none) :=
  ⟨⟨_, rfl, by decide⟩, ⟨_, rfl, rfl⟩, ⟨_, rfl, rfl⟩, ⟨_, rfl, rfl⟩⟩

/-- SequencerTableDecidesLegality: each of the four sequencer states, with every operand written. -/
theorem witness_sequencer_states :
    (loaded .idle).pend = none ∧ (loaded .idle).fsm = .idle ∧ (loaded .msgEnc).fsm = .msgEnc ∧ (loaded .msgDec).fsm = .msgDec ∧
      (loaded .ready).fsm = .ready ∧ (loaded .ready).keyWr = 0b1111#4 ∧ (loaded .ready).dinWr = 0b1111#4 ∧
      (loaded .ready).blkcnt ≠ 0#16 := by decide

/-- LengthChecksRefuseMissingOperands: a mask short of one bit, and a message of no block. -/
theorem witness_missing_operands :
    let s := { loaded .ready with keyWr := 0b0111#4, dinWr := 0b1110#4 }
    s.pend = none ∧ s.fsm = .ready ∧ s.keyWr ≠ 0b1111#4 ∧ s.dinWr ≠ 0b1111#4 ∧
      { s with fsm := .msgDec }.fsm = .msgDec ∧ { loaded .idle with blkcnt := 0#16 }.keyWr = 0b1111#4 := by decide

/-- NopRunsByItsRule, MsgAbortRunsByItsRule, ZeroizeRunsByItsRule: free, busy, accepted from reset; due below. -/
theorem witness_housekeeping :
    State.reset.pend = none ∧ waiting.pend ≠ none ∧ (∃ t, exec .nop State.reset = .next t) ∧
      ∃ t, exec .zeroize (loaded .ready) = .next t ∧ (loaded .ready).pend = none :=
  ⟨rfl, by decide, ⟨_, rfl⟩, _, rfl, rfl⟩

/-- The keyed commands' clauses (EXPAND_KEY and the message starts): accepted, in a message, key missing, no block. -/
theorem witness_keyed_commands :
    ((loaded .idle).pend = none ∧ (loaded .idle).fsm = .idle ∧ (loaded .idle).keyWr = 0b1111#4 ∧ (loaded .idle).blkcnt ≠ 0#16) ∧
      ((loaded .msgEnc).pend = none ∧ (loaded .msgEnc).fsm = .msgEnc) ∧
      ((bare .ready).pend = none ∧ (bare .ready).fsm = .ready ∧ (bare .ready).keyWr ≠ 0b1111#4) ∧
      { loaded .ready with blkcnt := 0#16 }.blkcnt = 0#16 := by decide

/-- The block commands' clauses (ENC_BLOCK, DEC_BLOCK): accepted, no key, in a message, block missing. -/
theorem witness_block_commands :
    ((loaded .ready).pend = none ∧ (loaded .ready).fsm = .ready ∧ (loaded .ready).dinWr = 0b1111#4) ∧
      ((bare .idle).pend = none ∧ (bare .idle).fsm = .idle) ∧ ((loaded .msgDec).pend = none ∧ (loaded .msgDec).fsm = .msgDec) ∧
      ((bare .ready).pend = none ∧ (bare .ready).fsm = .ready ∧ (bare .ready).dinWr ≠ 0b1111#4) := by decide

/-- The clauses of MSG_NEXT and of the building-block commands: accepted in and outside a message, block missing. -/
theorem witness_data_commands :
    ((loaded .msgDec).pend = none ∧ (loaded .msgDec).fsm = .msgDec ∧ (loaded .msgDec).dinWr = 0b1111#4) ∧
      ((bare .msgEnc).fsm = .msgEnc ∧ (bare .msgEnc).dinWr ≠ 0b1111#4) ∧
      ((loaded .idle).pend = none ∧ (loaded .idle).fsm = .idle ∧ (loaded .idle).dinWr = 0b1111#4) ∧
      ((bare .ready).fsm = .ready ∧ (bare .ready).dinWr ≠ 0b1111#4) := by decide

/-- The completion clause of every `…RunsByItsRule`: any command can be due, with any operands. -/
theorem witness_due (i : Instr) (k d : Block) (g : Byte) : DueWith i ⟨i, k, d, g⟩ (due i .msgEnc k d g) :=
  ⟨rfl, rfl, rfl, rfl⟩

/-- The example clauses that name the round keys (ENC_BLOCK, DEC_BLOCK, MSG_NEXT). -/
theorem witness_due_with_schedule (i : Instr) (k d : Block) :
    let s := { due i .msgEnc Block.zero d 0 with rk := keyExpansion k }
    DueWith i ⟨i, Block.zero, d, 0⟩ s ∧ s.fsm = .msgEnc ∧ s.rk = keyExpansion k :=
  ⟨⟨rfl, rfl, rfl, rfl⟩, rfl, rfl⟩

/-- The clauses of the completions of MSG_NEXT and MSG_ABORT: not the last block, the last, in a message, outside one. -/
theorem witness_message_ends :
    let s := due .msgNext .msgEnc Block.zero elevens 0
    s.blkidx + 1#16 ≠ s.msgCnt ∧ { s with msgCnt := 1#16 }.blkidx + 1#16 = 1#16 ∧ s.fsm = .msgEnc ∧
      (due .msgAbort .ready Block.zero Block.zero 0).fsm = .ready := by decide

/-- StepTakesTheNextCommandWord: a command word next with nothing due; a completion due; a word that decodes. -/
theorem witness_command_next :
    let s := facing (commandEvent 0x1) State.reset
    (s.script = .access (.write 0x08#8 0x1#32 0xF#4) :: [] ∧ decode 0x1#32 = .ok .expandKey ∧ completionDue s = false) ∧
      (completionDue (due .nop .idle Block.zero Block.zero 0) = true ∧
        resetNext (due .nop .idle Block.zero Block.zero 0) = false) ∧
      decode (BitVec.ofNat 32 (0xC % 2 ^ 32)) = .ok .zeroize := by decide

/-- ResetStepSetsEveryElement: a reset next, while a command is pending. -/
theorem witness_reset_next : (facing .reset waiting).script = .reset :: [] := rfl

/-- EveryStepKeepsTheInvariant and SequencerMovesOnlyByItsTable: the last block of a message, its completion due. -/
theorem witness_invariant :
    let s := { due .msgNext .msgEnc Block.zero elevens 0 with rk := keyExpansion counting, msgCnt := 1#16 }
    Inv s ∧ (∃ t, step s = .next t ∧ t.fsm = .idle) ∧ s.wait = 0 ∧ resetNext s = false := by
  refine ⟨⟨⟨fun h => (by cases h), fun _ => rfl⟩, fun _ => by decide, by unfold ErrorRecordSound; decide, ?_⟩, ⟨_, rfl, rfl⟩, rfl, rfl⟩
  exact ⟨rfl, fun h => (by decide : ¬ (isMsgStart .msgNext = true)) h |>.elim, rfl, fun _ => rfl, fun _ => rfl,
    fun h => (by cases h), fun _ => rfl⟩

/-- SequencerMovesOnlyByItsTable, the other kinds of step: reset next, and nothing due. -/
theorem witness_sequencer_other_steps :
    resetNext (facing .reset State.reset) = true ∧ completionDue State.reset = false ∧ resetNext State.reset = false ∧
      ∃ t, step (facing .reset (loaded .ready)) = .next t ∧ t.fsm = .idle :=
  ⟨rfl, rfl, rfl, _, rfl, rfl⟩

/-- OutputChangesOnlyAtCompletionOrReset and RoundKeysChangeOnlyByExpansionOrZeroizing: DOUT and RK change. -/
theorem witness_output_changes :
    let s := { due .zeroize .ready Block.zero Block.zero 0 with dout := Quad.const 1#32, rk := keyExpansion counting }
    ∃ t, step s = .next t ∧ t.dout ≠ s.dout ∧ t.rk.k0 ≠ s.rk.k0 :=
  ⟨_, rfl, by decide, by decide⟩

/-- CountersChangeOnlyAtTheirEvents: msg_cnt, BLKIDX and BLKCNT each change in a step. -/
theorem witness_counters_change :
    (∃ t, step (facing (commandEvent 0x4) (loaded .idle)) = .next t ∧ t.msgCnt ≠ (loaded .idle).msgCnt) ∧
      (∃ t, step (due .msgNext .msgEnc Block.zero elevens 0) = .next t ∧ t.blkidx ≠ 0#16) ∧
      (∃ t, step (facing (.access (.write 0x40 0x7 0xF)) State.reset) = .next t ∧ t.blkcnt = 7#16) :=
  ⟨⟨_, rfl, by decide⟩, ⟨_, rfl, by decide⟩, ⟨_, rfl, rfl⟩⟩

/-- NoTransactionTellsTheKey: two states with different keys, both able to step, no cipher output due. -/
theorem witness_secrets_differ :
    let s := facing (.access (.read 0x10)) (loaded .ready)
    let t := { s with key := Quad.const 7#32, rk := keyExpansion counting }
    SameButSecrets s t ∧ s.key ≠ t.key ∧ ¬ cipherDue s ∧ (∃ s', step s = .next s') ∧ ∃ t', step t = .next t' :=
  ⟨rfl, by decide, fun h => (by cases h.1), ⟨_, rfl⟩, ⟨_, rfl⟩⟩

/-- WaitReadsStatusUntilBusyIsClear: a poll with nothing pending, with a command waiting, with one due. -/
theorem witness_poll :
    (facing .pollBusy State.reset).script = .pollBusy :: [] ∧ (facing .pollBusy waiting).script = .pollBusy :: [] ∧
      completionDue (facing .pollBusy waiting) = false ∧
      completionDue (facing .pollBusy (due .nop .idle Block.zero Block.zero 0)) = true := by decide

/-- LatencyDependsOnNoData: two states with different data accept the same command. -/
theorem witness_latency :
    let s := loaded .ready
    let t := { s with din := Quad.const 9#32 }
    s.accepts = t.accepts ∧ s.pend = none ∧ t.pend = none ∧ (∃ s', exec .sbox s = .next s' ∧ s'.pend ≠ none) ∧
      ∃ t', exec .sbox t = .next t' ∧ t'.pend ≠ none :=
  ⟨rfl, rfl, rfl, ⟨_, rfl, by decide⟩, ⟨_, rfl, by decide⟩⟩

/-- IrqFollowsDoneAndErr: a command pending with the interrupt enabled; one disabled. -/
theorem witness_irq :
    { waiting with irqEn := true }.irqEn = true ∧ { waiting with irqEn := true }.pend.isSome = true ∧
      State.reset.irqEn = false := by decide

/-- WindowAndPortMapOntoTransactions: addresses just outside the window; ports in reset, in the access phase, and not. -/
theorem witness_window_and_port :
    (Config.base + 256 ≤ Config.base + 256) ∧
      (∃ p : PortInputs, p.rstN = false) ∧
      (∃ p : PortInputs, p.rstN = true ∧ p.psel = true ∧ p.penable = true ∧ p.pwrite = true) ∧
      (∃ p : PortInputs, p.rstN = true ∧ p.psel = true ∧ p.penable = true ∧ p.pwrite = false) ∧
      ∃ p : PortInputs, p.rstN = true ∧ ¬ (p.psel = true ∧ p.penable = true) :=
  ⟨Nat.le_refl _, ⟨⟨false, true, true, false, 0, 0, 0, 0⟩, rfl⟩, ⟨⟨true, true, true, true, 0, 0, 0, 0⟩, by decide⟩,
    ⟨⟨true, true, true, false, 0, 0, 0, 0⟩, by decide⟩, ⟨⟨true, true, false, true, 0, 0, 0, 0⟩, by decide⟩⟩

/-- GmulIsFieldMultiplication and GinvIsTheMultiplicativeInverse: a product that is zero, a pair of inverses. -/
theorem witness_field : gmul 0x00 0x53 = 0x00#8 ∧ gmul 0x53 0xca = 0x01#8 := by decide +kernel

/-- KeyExpansionFollowsItsRecurrence: the first and last word of each kind. -/
theorem witness_schedule_indices :
    (4 ≤ 4 ∧ 4 % 4 = 0) ∧ (40 < 44 ∧ 40 % 4 = 0) ∧ (4 ≤ 5 ∧ 5 % 4 ≠ 0) ∧ (43 < 44 ∧ 43 % 4 ≠ 0) := by decide

/-- PseudoStatementsExpandAsTabled: a statement that is no WAIT. -/
theorem witness_not_wait : Stmt.rdout ≠ .wait := by decide

/-- MessageDriverComputesEcb and BlockDriverComputesEcb: from reset and from READY, one block. -/
theorem witness_drivers :
    [elevens] ≠ [] ∧ State.reset.pend = none ∧ State.reset.err = false ∧ State.reset.fsm = .idle ∧ (loaded .ready).pend = none ∧
      (loaded .ready).err = false ∧ (loaded .ready).fsm = .ready := by decide

/-- PaddingIsUndoneAndFillsBlocks: a whole number of blocks. -/
theorem witness_whole_blocks : (List.replicate 16 0x41#8).length % 16 = 0 ∧ ([] : ByteString).length % 16 = 0 := by decide

/-- Base64AcceptsExactlyItsEncodings: a text that encodes nothing. -/
theorem witness_not_base64 : ∀ x : ByteString, ['A'] ≠ base64Encode x
  | [] => by simp [base64Encode]
  | [_] => by simp [base64Encode]
  | [_, _] => by simp [base64Encode]
  | _ :: _ :: _ :: _ => by simp [base64Encode]

/-- Utf8AcceptsExactlyItsEncodings: bytes that encode nothing. -/
theorem witness_not_utf8 : ∀ t : Text, [0x80#8] ≠ utf8Encode t := by
  intro t h
  cases t with
  | nil => simp [utf8Encode] at h
  | cons c cs =>
    simp only [utf8Encode, List.flatMap_cons, utf8Char] at h
    have hlen := congrArg List.length h
    split at h
    · rename_i hc
      simp only [List.singleton_append, List.cons.injEq] at h
      have := congrArg BitVec.toNat h.1
      simp at this
      omega
    · split at h
      · simp at h
      · split at h <;> simp at h

/-- LibraryCallsCheckBeforeTheCipher: no text, no key, a key of the wrong length, one of sixteen bytes. -/
theorem witness_keys :
    (utf8Encode "short".toList).length ≠ 16 ∧ (utf8Encode "YELLOW SUBMARINE".toList).length = 16 ∧ "hello".toList ≠ [] ∧
      (utf8Encode "YELLOW SUBMARIN".toList).length ≠ 16 := by decide

end Sys2Proof.Tests
end

/-! ### Family 10_state, what a step can do to the core's own state

Every step is one of four kinds: the due completion, a reset, the acceptance of a command, or a step that keeps what the core
alone writes (`step_kinds`). The safety statements of this family read their answer off these four kinds. -/
section

namespace Sys2Proof.Machine

/-- `t` has of `s` what only the core writes (`fsm`, RK, DOUT, BLKIDX, `msg_cnt`, `pend`, DOUT_VALID); DONE and the waiting
have not risen, and a sound error record is still one. What a host event does when it is no reset and starts no command. -/
structure CoreKept (s t : State) : Prop where
  fsm : t.fsm = s.fsm := by rfl
  rk : t.rk = s.rk := by rfl
  dout : t.dout = s.dout := by rfl
  blkidx : t.blkidx = s.blkidx := by rfl
  msgCnt : t.msgCnt = s.msgCnt := by rfl
  pend : t.pend = s.pend := by rfl
  doutValid : t.doutValid = s.doutValid := by rfl
  done : s.done = false → t.done = false := by exact id
  wait : t.wait ≤ s.wait := by exact Nat.le_refl _
  errors : ErrorRecordSound s → ErrorRecordSound t := by exact id

theorem CoreKept.refl (s : State) : CoreKept s s := {}

theorem CoreKept.trans {s t u : State} (h : CoreKept s t) (h' : CoreKept t u) : CoreKept s u where
  fsm := h'.fsm.trans h.fsm
  rk := h'.rk.trans h.rk
  dout := h'.dout.trans h.dout
  blkidx := h'.blkidx.trans h.blkidx
  msgCnt := h'.msgCnt.trans h.msgCnt
  pend := h'.pend.trans h.pend
  doutValid := h'.doutValid.trans h.doutValid
  done := h'.done ∘ h.done
  wait := h'.wait.trans h.wait
  errors := h'.errors ∘ h.errors

theorem coreKept_answer (r : Response) (s : State) : CoreKept s (answer r s) := {}

theorem coreKept_takeEvent (rest : List Event) (s : State) : CoreKept s (takeEvent rest s) := {}

theorem coreKept_tick (s : State) : CoreKept s (tick s) := { wait := Nat.sub_le _ _ }

/-- The codes that can be raised are 0x1 to 0x8 (R302). -/
theorem errCode_code_bounds (c : ErrCode) : c.code ≠ 0x0#4 ∧ c.code ≤ 0x8#4 := by
  cases c <;> decide

theorem coreKept_raiseError (c : ErrCode) (s : State) : CoreKept s (raiseError c s) := by
  cases he : s.err with
  | true => rw [raiseError_again c s he]; exact .refl s
  | false =>
    obtain ⟨hne, hle⟩ := errCode_code_bounds c
    rw [raiseError_first c s he]
    exact { errors := fun _ => ⟨by simp [hne], hle⟩ }

theorem ErrorRecordSound.of_eq {s t : State} (h : ErrorRecordSound s) (he : t.err = s.err) (hc : t.errcode = s.errcode) :
    ErrorRecordSound t := by
  unfold ErrorRecordSound
  rwa [he, hc]

theorem coreKept_clearStatus (v : Word) (s : State) : CoreKept s (clearStatus v s) where
  done h := by simp [h]
  errors h := by
    cases hv : v.getLsbD 2 with
    | true => simp [ErrorRecordSound, hv]
    | false => exact h.of_eq (by rw [clearStatus_err, hv]; rfl) (by rw [clearStatus_errcode, hv]; rfl)

/-- An offset that decodes is its register's own (R109). -/
theorem eq_offsetOf_of_decodeOffset {off : Offset} {r : Reg} (h : decodeOffset off = .ok r) : off = offsetOf r := by
  have hall : ∀ o : Offset, (decodeOffset o).toOption.all (fun q => o == offsetOf q) = true := by decide +kernel
  simpa [h, Except.toOption] using hall off

/-- A register write starts a command or keeps the core's state; BLKCNT is written through its own register only (R78). -/
theorem writeReg_kinds {r : Reg} {v : Word} {s t : State} (h : writeReg r v s = .next t) :
    (∃ i, firstRefusal i s = none ∧ t = ownAcceptance i (acceptCommon i s)) ∨
      (CoreKept s t ∧ (t.blkcnt = s.blkcnt ∨ (r = .blkcnt ∧ t.blkcnt = v.extractLsb' 0 16))) := by
  cases r with
  | cmd =>
    rcases writeCmd_cases h with ⟨c, rfl⟩ | ⟨i, -, hr, rfl⟩
    · exact .inr ⟨coreKept_raiseError c s, .inl (raiseError_blkcnt c s)⟩
    · exact .inl ⟨i, hr, rfl⟩
  | status => cases h; exact .inr ⟨coreKept_clearStatus v s, .inl rfl⟩
  | blkcnt => cases h; exact .inr ⟨{}, .inr ⟨rfl, rfl⟩⟩
  | id | ctrl | key | din | dout | blkidx | gfb => cases h; exact .inr ⟨{}, .inl rfl⟩

/-- A transaction starts a command or keeps the core's state; BLKCNT changes by a write at 0x40 only (R37). -/
theorem access_kinds {x : Txn} {s t : State} (h : access x s = .next t) :
    (∃ i, firstRefusal i s = none ∧ t = ownAcceptance i (acceptCommon i (answer (.writeDone false) s))) ∨
      (CoreKept s t ∧
        (t.blkcnt = s.blkcnt ∨ ∃ v, x = .write 0x40#8 v 0xF#4 ∧ t.blkcnt = v.extractLsb' 0 16)) := by
  rcases access_cases h with ⟨a, rfl⟩ | ⟨off, r, -, -, rfl⟩ | ⟨off, v, r, rfl, ho, hw⟩
  · exact .inr ⟨(coreKept_raiseError .bus s).trans (coreKept_answer a _), .inl (raiseError_blkcnt .bus s)⟩
  · exact .inr ⟨coreKept_answer _ s, .inl rfl⟩
  · rcases writeReg_kinds hw with ⟨i, hi, rfl⟩ | ⟨hk, hb⟩
    · exact .inl ⟨i, hi, rfl⟩
    · refine .inr ⟨(coreKept_answer _ s).trans hk, hb.imp id ?_⟩
      rintro ⟨rfl, hv⟩
      exact ⟨v, by rw [eq_offsetOf_of_decodeOffset ho]; rfl, hv⟩

/-- The state in which the next transaction is taken, `rest` being to come, and its write acknowledged. -/
def acknowledged (rest : List Event) (s : State) : State := answer (.writeDone false) (tick (takeEvent rest s))

theorem coreKept_tick_takeEvent (rest : List Event) (s : State) : CoreKept s (tick (takeEvent rest s)) :=
  (coreKept_takeEvent rest s).trans (coreKept_tick _)

theorem coreKept_acknowledged (rest : List Event) (s : State) : CoreKept s (acknowledged rest s) :=
  (coreKept_tick_takeEvent rest s).trans (coreKept_answer _ _)

@[simp] theorem acknowledged_blkcnt (rest : List Event) (s : State) : (acknowledged rest s).blkcnt = s.blkcnt := rfl

/-- The checks of acceptance read nothing that the taking of the transaction changes (R211). -/
@[simp] theorem firstRefusal_acknowledged (i : Instr) (rest : List Event) (s : State) :
    firstRefusal i (acknowledged rest s) = firstRefusal i s := rfl

/-- The four kinds of step: the due completion, a reset, an acceptance, and a step that keeps the core's state. -/
theorem step_kinds {s t : State} (h : step s = .next t) :
    (completionDue s = true ∧ ∃ p, s.pend = some p ∧ t = finish (ownCompletion p.op p s)) ∨
      (∃ rest, s.script = .reset :: rest ∧ t = resetCore (takeEvent rest s)) ∨
      (∃ rest i, firstRefusal i s = none ∧ t = ownAcceptance i (acceptCommon i (acknowledged rest s))) ∨
      (CoreKept s t ∧
        (t.blkcnt = s.blkcnt ∨
          ∃ v rest, s.script = .access (.write 0x40#8 v 0xF#4) :: rest ∧ t.blkcnt = v.extractLsb' 0 16)) := by
  rcases step_cases h with ⟨hd, -, rfl⟩ | hreset | ⟨-, -, rfl⟩ | ⟨rest, -, -, rfl⟩ | ⟨rest, -, -, rfl⟩ |
    ⟨x, rest, -, hs, ha⟩
  · obtain ⟨p, hp⟩ := Option.ne_none_iff_exists'.mp ((completionDue_iff s).1 hd).1
    exact .inl ⟨hd, p, hp, complete_pending hp⟩
  · exact .inr (.inl hreset)
  · exact .inr (.inr (.inr ⟨coreKept_tick s, .inl rfl⟩))
  · exact .inr (.inr (.inr ⟨coreKept_tick_takeEvent rest s, .inl rfl⟩))
  · refine .inr (.inr (.inr ?_))
    cases busy s with
    | true => exact ⟨(coreKept_tick s).trans (coreKept_answer _ _), .inl rfl⟩
    | false => exact ⟨(coreKept_tick_takeEvent rest s).trans (coreKept_answer _ _), .inl rfl⟩
  · rcases access_kinds ha with ⟨i, hi, rfl⟩ | ⟨hk, hb⟩
    · exact .inr (.inr (.inl ⟨rest, i, hi, rfl⟩))
    · refine .inr (.inr (.inr ⟨(coreKept_tick_takeEvent rest s).trans hk, hb.imp id ?_⟩))
      rintro ⟨v, rfl, hv⟩
      exact ⟨v, rest, hs, hv⟩

/-! The acceptance effects of a command's own rule, field by field. -/

section

variable (i : Instr) (s : State)

@[simp] theorem ownAcceptance_dout : (ownAcceptance i s).dout = s.dout := by cases i <;> rfl
@[simp] theorem ownAcceptance_blkidx : (ownAcceptance i s).blkidx = s.blkidx := by cases i <;> rfl
@[simp] theorem ownAcceptance_done : (ownAcceptance i s).done = s.done := by cases i <;> rfl
@[simp] theorem ownAcceptance_err : (ownAcceptance i s).err = s.err := by cases i <;> rfl
@[simp] theorem ownAcceptance_errcode : (ownAcceptance i s).errcode = s.errcode := by cases i <;> rfl

/-- A message start latches the block count (R45). -/
theorem ownAcceptance_msgCnt : (ownAcceptance i s).msgCnt = if isMsgStart i then s.blkcnt else s.msgCnt := by
  cases i <;> rfl

/-- ZEROIZE clears the block count (R37, R232). -/
theorem ownAcceptance_blkcnt : (ownAcceptance i s).blkcnt = if i = .zeroize then 0#16 else s.blkcnt := by
  cases i <;> rfl

theorem ownAcceptance_doutValid : (ownAcceptance i s).doutValid = if i = .zeroize then false else s.doutValid := by
  cases i <;> rfl

end

theorem isMsgStart_iff (i : Instr) : isMsgStart i = true ↔ i = .msgStartEnc ∨ i = .msgStartDec := by
  cases i <;> decide

theorem producesDout_iff (i : Instr) :
    producesDout i = true ↔
      i = .encBlock ∨ i = .decBlock ∨ i = .msgNext ∨ i = .sbox ∨ i = .invSbox ∨ i = .gfInv ∨ i = .gfMul ∨ i = .zeroize := by
  cases i <;> decide

theorem inMessage_iff (f : Fsm) : f.inMessage = true ↔ f = .msgEnc ∨ f = .msgDec := by
  cases f <;> decide

end Sys2Proof.Machine
end

/-! ### The invariant of the machine: reset meets it, and each of the four kinds of step keeps it -/
section

namespace Sys2Proof.Machine

/-- The first round key is the key itself (R154, R155). -/
@[simp] theorem keyExpansion_k0 (k : Block) : (keyExpansion k).k0 = k := rfl

theorem scheduleSound_zero {s : State} (hf : s.fsm = .idle) (hr : s.rk = Schedule.zero) : ScheduleSound s :=
  ⟨fun _ => hr, fun h => absurd hf h⟩

theorem scheduleSound_expanded {s : State} {k : Block} (hf : s.fsm ≠ .idle) (hr : s.rk = keyExpansion k) :
    ScheduleSound s :=
  ⟨fun h => absurd h hf, fun _ => by rw [hr, keyExpansion_k0]⟩

theorem ScheduleSound.of_eq {s t : State} (h : ScheduleSound s) (hf : t.fsm = s.fsm) (hr : t.rk = s.rk) :
    ScheduleSound t := by
  unfold ScheduleSound
  rwa [hf, hr]

theorem MessageCounted.of_eq {s t : State} (h : MessageCounted s) (hf : t.fsm = s.fsm) (hi : t.blkidx = s.blkidx)
    (hc : t.msgCnt = s.msgCnt) : MessageCounted t := by
  unfold MessageCounted
  rwa [hf, hi, hc]

theorem messageCounted_of_not_inMessage {s : State} (h : s.fsm.inMessage = false) : MessageCounted s :=
  fun hm => by rw [h] at hm; cases hm

/-- With nothing pending, nothing is awaited. -/
theorem pendingSound_of_none {s : State} (h : s.pend = none) : PendingSound s ↔ s.wait = 0 := by
  simp only [PendingSound, h]

/-- What is kept while `p` is pending. -/
theorem pendingSound_of_some {s : State} {p : Pending} (h : s.pend = some p) :
    PendingSound s ↔
      stateError p.op s.fsm = none ∧ (isMsgStart p.op = true → s.msgCnt ≠ 0#16) ∧ s.done = false ∧
        (producesDout p.op = true → s.doutValid = false) ∧ (needsKey p.op = false → p.lkey = Block.zero) ∧
        (needsDin p.op = false → p.ldin = Block.zero) ∧ (p.op ≠ .gfMul → p.lgfb = 0x00#8) := by
  simp only [PendingSound, h]

/-- Reset meets the invariant (R49, R340). -/
theorem inv_resetCore (s : State) : Inv (resetCore s) where
  schedule := scheduleSound_zero rfl rfl
  message := messageCounted_of_not_inMessage rfl
  errors := ⟨⟨fun _ => rfl, fun _ => rfl⟩, (by decide : 0x0#4 ≤ 0x8#4)⟩
  pending := (pendingSound_of_none rfl).2 rfl

theorem PendingSound.of_coreKept {s t : State} (h : PendingSound s) (hk : CoreKept s t) : PendingSound t := by
  cases hp : s.pend with
  | none =>
    have hwait : s.wait = 0 := (pendingSound_of_none hp).1 h
    exact (pendingSound_of_none (hk.pend.trans hp)).2 (Nat.le_zero.1 (hwait ▸ hk.wait))
  | some p =>
    obtain ⟨hlegal, hcnt, hdone, hdv, hoperands⟩ := (pendingSound_of_some hp).1 h
    rw [pendingSound_of_some (hk.pend.trans hp), hk.fsm, hk.msgCnt, hk.doutValid]
    exact ⟨hlegal, hcnt, hk.done hdone, hdv, hoperands⟩

/-- A step that keeps the core's state keeps the invariant. -/
theorem Inv.of_coreKept {s t : State} (h : Inv s) (hk : CoreKept s t) : Inv t where
  schedule := h.schedule.of_eq hk.fsm hk.rk
  message := h.message.of_eq hk.fsm hk.blkidx hk.msgCnt
  errors := hk.errors h.errors
  pending := h.pending.of_coreKept hk

/-- A message start is legal outside a message only (R213). -/
theorem not_inMessage_of_legal_msgStart {i : Instr} {f : Fsm} (hi : isMsgStart i = true) (hf : stateError i f = none) :
    f.inMessage = false := by
  rcases (isMsgStart_iff i).1 hi with rfl | rfl <;> simpa [stateError] using hf

/-- An accepted command meets what is kept while it is pending (R27, R30, R41, R213, R214). -/
theorem pendingSound_acceptance {i : Instr} {s : State} (ha : firstRefusal i s = none) :
    PendingSound (ownAcceptance i (acceptCommon i s)) := by
  obtain ⟨-, hlegal, -, -, hblk⟩ := (firstRefusal_none_iff i s).1 ha
  have hp : (ownAcceptance i (acceptCommon i s)).pend = some (latch i s) := ownAcceptance_pend i _
  rw [pendingSound_of_some hp, ownAcceptance_fsm, ownAcceptance_msgCnt, ownAcceptance_doutValid]
  refine ⟨hlegal, fun hi => ?_, by simp, fun hi => ?_, fun hi => ?_, fun hi => ?_, fun hi => if_neg hi⟩
  · rw [if_pos (show isMsgStart i = true from hi)]; exact hblk hi
  · simp [show producesDout i = true from hi]
  · simp [latch, show needsKey i = false from hi]
  · simp [latch, show needsDin i = false from hi]

/-- An acceptance changes `msg_cnt` outside a message only, so a message in progress stays counted (R45, R241). -/
theorem messageCounted_acceptance {i : Instr} {s : State} (h : MessageCounted s) (ha : firstRefusal i s = none) :
    MessageCounted (ownAcceptance i (acceptCommon i s)) := by
  obtain ⟨-, hlegal, -⟩ := (firstRefusal_none_iff i s).1 ha
  have hfsm : (ownAcceptance i (acceptCommon i s)).fsm = s.fsm := ownAcceptance_fsm i _
  cases hi : isMsgStart i with
  | true => exact messageCounted_of_not_inMessage (hfsm ▸ not_inMessage_of_legal_msgStart hi hlegal)
  | false => exact h.of_eq hfsm (by simp) (by simp [ownAcceptance_msgCnt, hi])

/-- The acceptance of a command keeps the invariant. -/
theorem Inv.acceptance {i : Instr} {s : State} (h : Inv s) (ha : firstRefusal i s = none) :
    Inv (ownAcceptance i (acceptCommon i s)) where
  schedule := h.schedule.of_eq (ownAcceptance_fsm i _) (ownAcceptance_rk i _)
  message := messageCounted_acceptance h.message ha
  errors := h.errors.of_eq (by simp) (by simp)
  pending := pendingSound_acceptance ha

/-- A completion expands a key into a state that holds it, zeroizes RK on the way to IDLE, or changes neither. -/
theorem ScheduleSound.completion {s : State} (h : ScheduleSound s) (i : Instr) (p : Pending) :
    ScheduleSound (ownCompletion i p s) := by
  have hfsm := ownCompletion_fsm i p s
  have hrk := ownCompletion_rk i p s
  cases i with
  | expandKey | msgStartEnc | msgStartDec => exact scheduleSound_expanded (by simp [hfsm]) hrk
  | zeroize => exact scheduleSound_zero hfsm hrk
  | msgNext =>
    by_cases hlast : s.blkidx + 1#16 = s.msgCnt
    · simp only [if_pos hlast] at hfsm hrk; exact scheduleSound_zero hfsm hrk
    · simp only [if_neg hlast] at hfsm hrk; exact h.of_eq hfsm hrk
  | msgAbort =>
    by_cases hm : s.fsm.inMessage = true
    · simp only [if_pos hm] at hfsm hrk; exact scheduleSound_zero hfsm hrk
    · simp only [if_neg hm] at hfsm hrk; exact h.of_eq hfsm hrk
  | nop | encBlock | decBlock | sbox | invSbox | gfInv | gfMul => exact h.of_eq hfsm hrk

/-- A count below another, and one more is not yet that other. -/
theorem add_one_lt_of_lt_of_ne {a b : BitVec 16} (h : a < b) (hne : a + 1#16 ≠ b) : a + 1#16 < b := by
  bv_omega

/-- A message starts at 0 of at least one block, and goes on only while a block is left (R241). -/
theorem MessageCounted.completion {s : State} (h : MessageCounted s) (i : Instr) (p : Pending)
    (hcnt : isMsgStart i = true → s.msgCnt ≠ 0#16) : MessageCounted (ownCompletion i p s) := by
  have hfsm := ownCompletion_fsm i p s
  have hidx := ownCompletion_blkidx i p s
  have hmsg := ownCompletion_msgCnt i p s
  cases i with
  | expandKey | zeroize => exact messageCounted_of_not_inMessage (by rw [hfsm]; rfl)
  | msgStartEnc | msgStartDec =>
    intro _
    rw [hidx, hmsg]
    exact (BitVec.pos_iff_ne_zero _).2 (hcnt rfl)
  | msgNext =>
    by_cases hlast : s.blkidx + 1#16 = s.msgCnt
    · simp only [if_pos hlast] at hfsm; exact messageCounted_of_not_inMessage (by rw [hfsm]; rfl)
    · simp only [if_neg hlast] at hfsm
      intro hm
      rw [hidx, hmsg]
      exact add_one_lt_of_lt_of_ne (h (hfsm ▸ hm)) hlast
  | msgAbort =>
    by_cases hm : s.fsm.inMessage = true
    · simp only [if_pos hm] at hfsm; exact messageCounted_of_not_inMessage (by rw [hfsm]; rfl)
    · simp only [if_neg hm] at hfsm; exact h.of_eq hfsm hidx hmsg
  | nop | encBlock | decBlock | sbox | invSbox | gfInv | gfMul => exact h.of_eq hfsm hidx hmsg

/-- The completion of the pending command keeps the invariant. -/
theorem Inv.completion {s : State} {p : Pending} (h : Inv s) (hp : s.pend = some p) :
    Inv (finish (ownCompletion p.op p s)) := by
  obtain ⟨-, hcnt, -⟩ := (pendingSound_of_some hp).1 h.pending
  obtain ⟨herr, hcode, -⟩ := ownCompletion_frame p.op p s
  exact
    { schedule := (h.schedule.completion p.op p).of_eq rfl rfl
      message := (h.message.completion p.op p hcnt).of_eq rfl rfl rfl
      errors := h.errors.of_eq herr hcode
      pending := (pendingSound_of_none rfl).2 rfl }

/-- Settles O32: each of the four kinds of step keeps the invariant. -/
theorem everyStepKeepsTheInvariant : Obligations.EveryStepKeepsTheInvariant := by
  intro s t hi h
  rcases step_kinds h with ⟨-, p, hp, rfl⟩ | ⟨rest, -, rfl⟩ | ⟨rest, i, ha, rfl⟩ | ⟨hk, -⟩
  · exact hi.completion hp
  · exact inv_resetCore _
  · exact (hi.of_coreKept (coreKept_acknowledged rest s)).acceptance ha
  · exact hi.of_coreKept hk

/-- Settles O31: the state after reset is a reset core. -/
theorem invariantHoldsAfterReset : Obligations.InvariantHoldsAfterReset :=
  inv_resetCore State.reset

end Sys2Proof.Machine
end

/-! ### What changes DOUT, the round keys and the counters -/
section

namespace Sys2Proof.Machine

/-- A DOUT register at its offset: a write is only answered, a read returns it and is only answered (R35, R80). -/
theorem access_dout (s : State) (j : Fin 4) (v : Word) :
    access (.write (offsetOf (.dout j)) v 0xF#4) s = .next (answer (.writeDone false) s) ∧
      access (.read (offsetOf (.dout j))) s = .next (answer (.readData (s.dout.get j) false) s) :=
  ⟨access_write_reg (.dout j) v s, access_read_reg (.dout j) s⟩

/-- Settles O34: only the completion of a DOUT-producer and reset are kinds of step that do not keep DOUT. -/
theorem outputChangesOnlyAtCompletionOrReset : Obligations.OutputChangesOnlyAtCompletionOrReset := by
  refine ⟨fun s t h hne => ?_, access_dout⟩
  rcases step_kinds h with ⟨hd, p, hp, rfl⟩ | ⟨rest, hs, -⟩ | ⟨rest, i, -, rfl⟩ | ⟨hk, -⟩
  · cases hprod : producesDout p.op with
    | true => exact .inr ⟨hd, p, hp, (producesDout_iff p.op).1 hprod⟩
    | false => exact absurd (ownCompletion_dout_of_not_producesDout hprod p s) hne
  · exact .inl ⟨rest, hs⟩
  · exact absurd (ownAcceptance_dout i _) hne
  · exact absurd hk.dout hne

/-- What a completion does to the round keys: nothing, the expansion of the latched key, or their end (R40, R245). -/
theorem ownCompletion_rk_cases (p : Pending) (s : State) :
    (ownCompletion p.op p s).rk = s.rk ∨
      ((p.op = .expandKey ∨ p.op = .msgStartEnc ∨ p.op = .msgStartDec) ∧
        (ownCompletion p.op p s).rk = keyExpansion p.lkey) ∨
      ((ownCompletion p.op p s).rk = Schedule.zero ∧
        (p.op = .zeroize ∨ (p.op = .msgAbort ∧ (s.fsm = .msgEnc ∨ s.fsm = .msgDec)) ∨
          (p.op = .msgNext ∧ s.blkidx + 1#16 = s.msgCnt))) := by
  rw [ownCompletion_rk]
  cases p.op with
  | expandKey => exact .inr (.inl ⟨.inl rfl, rfl⟩)
  | msgStartEnc => exact .inr (.inl ⟨.inr (.inl rfl), rfl⟩)
  | msgStartDec => exact .inr (.inl ⟨.inr (.inr rfl), rfl⟩)
  | zeroize => exact .inr (.inr ⟨rfl, .inl rfl⟩)
  | msgNext =>
    by_cases hlast : s.blkidx + 1#16 = s.msgCnt
    · exact .inr (.inr ⟨if_pos hlast, .inr (.inr ⟨rfl, hlast⟩)⟩)
    · exact .inl (if_neg hlast)
  | msgAbort =>
    by_cases hm : s.fsm.inMessage = true
    · exact .inr (.inr ⟨if_pos hm, .inr (.inl ⟨rfl, (inMessage_iff s.fsm).1 hm⟩)⟩)
    · exact .inl (if_neg hm)
  | nop | encBlock | decBlock | sbox | invSbox | gfInv | gfMul => exact .inl rfl

/-- Settles O35: a completion changes RK as its command's rule says, a reset clears it, every other step keeps it. -/
theorem roundKeysChangeOnlyByExpansionOrZeroizing : Obligations.RoundKeysChangeOnlyByExpansionOrZeroizing := by
  intro s t h
  rcases step_kinds h with ⟨hd, p, hp, rfl⟩ | ⟨rest, hs, rfl⟩ | ⟨rest, i, -, rfl⟩ | ⟨hk, -⟩
  · exact (ownCompletion_rk_cases p s).imp id fun hev => .inr ⟨hd, p, hp, hev⟩
  · exact .inr (.inl ⟨rfl, rest, hs⟩)
  · exact .inl (ownAcceptance_rk i _)
  · exact .inl hk.rk

/-- The events at which BLKIDX changes in a completion (R38). -/
theorem ownCompletion_blkidx_cases (p : Pending) (s : State) :
    (ownCompletion p.op p s).blkidx = s.blkidx ∨
      ((ownCompletion p.op p s).blkidx = 0#16 ∧ (p.op = .msgStartEnc ∨ p.op = .msgStartDec ∨ p.op = .zeroize)) ∨
      ((ownCompletion p.op p s).blkidx = s.blkidx + 1#16 ∧ p.op = .msgNext) := by
  rw [ownCompletion_blkidx]
  cases p.op <;> simp

/-- `msg_cnt` changes at a reset, at ZEROIZE's completion, and at the acceptance of a message start (R45). -/
theorem step_msgCnt_change {s t : State} (h : step s = .next t) (hne : t.msgCnt ≠ s.msgCnt) :
    (t.msgCnt = 0#16 ∧ ∃ rest, s.script = .reset :: rest) ∨
      (t.msgCnt = 0#16 ∧ completionDue s = true ∧ ∃ p : Pending, s.pend = some p ∧ p.op = .zeroize) ∨
      (t.msgCnt = s.blkcnt ∧ s.pend = none ∧
        ∃ p : Pending, t.pend = some p ∧ (p.op = .msgStartEnc ∨ p.op = .msgStartDec)) := by
  rcases step_kinds h with ⟨hd, p, hp, rfl⟩ | ⟨rest, hs, rfl⟩ | ⟨rest, i, ha, rfl⟩ | ⟨hk, -⟩
  · have hcnt := ownCompletion_msgCnt p.op p s
    by_cases hz : p.op = .zeroize
    · rw [if_pos hz] at hcnt; exact .inr (.inl ⟨hcnt, hd, p, hp, hz⟩)
    · rw [if_neg hz] at hcnt; exact absurd hcnt hne
  · exact .inl ⟨rfl, rest, hs⟩
  · have hcnt := ownAcceptance_msgCnt i (acceptCommon i (acknowledged rest s))
    cases hi : isMsgStart i with
    | true =>
      obtain ⟨hfree, -⟩ := (firstRefusal_none_iff i s).1 ha
      rw [hi, if_pos rfl] at hcnt
      exact .inr (.inr ⟨hcnt, hfree, _, ownAcceptance_pend i _, (isMsgStart_iff i).1 hi⟩)
    | false =>
      rw [hi, if_neg Bool.false_ne_true] at hcnt
      exact absurd hcnt hne
  · exact absurd hk.msgCnt hne

/-- BLKIDX changes at a reset and at the completions that name it (R38). -/
theorem step_blkidx_change {s t : State} (h : step s = .next t) (hne : t.blkidx ≠ s.blkidx) :
    (t.blkidx = 0#16 ∧ ∃ rest, s.script = .reset :: rest) ∨
      (completionDue s = true ∧
        ∃ p : Pending, s.pend = some p ∧
          ((t.blkidx = 0#16 ∧ (p.op = .msgStartEnc ∨ p.op = .msgStartDec ∨ p.op = .zeroize)) ∨
            (t.blkidx = s.blkidx + 1#16 ∧ p.op = .msgNext))) := by
  rcases step_kinds h with ⟨hd, p, hp, rfl⟩ | ⟨rest, hs, rfl⟩ | ⟨rest, i, -, rfl⟩ | ⟨hk, -⟩
  · exact .inr ⟨hd, p, hp, (ownCompletion_blkidx_cases p s).resolve_left hne⟩
  · exact .inl ⟨rfl, rest, hs⟩
  · exact absurd (ownAcceptance_blkidx i _) hne
  · exact absurd hk.blkidx hne

/-- BLKCNT changes at a reset, a write to it, and the acceptance of ZEROIZE (R37). -/
theorem step_blkcnt_change {s t : State} (h : step s = .next t) (hne : t.blkcnt ≠ s.blkcnt) :
    (∃ rest, s.script = .reset :: rest) ∨
      (∃ v rest, s.script = .access (.write 0x40#8 v 0xF#4) :: rest ∧ t.blkcnt = v.extractLsb' 0 16) ∨
      (t.blkcnt = 0#16 ∧ s.pend = none ∧ ∃ p : Pending, t.pend = some p ∧ p.op = .zeroize) := by
  rcases step_kinds h with ⟨-, p, -, rfl⟩ | ⟨rest, hs, -⟩ | ⟨rest, i, ha, rfl⟩ | ⟨-, hb⟩
  · obtain ⟨-, -, -, -, -, -, -, -, hcnt, -⟩ := ownCompletion_frame p.op p s
    exact absurd hcnt hne
  · exact .inl ⟨rest, hs⟩
  · have hcnt := ownAcceptance_blkcnt i (acceptCommon i (acknowledged rest s))
    by_cases hz : i = .zeroize
    · obtain ⟨hfree, -⟩ := (firstRefusal_none_iff i s).1 ha
      rw [if_pos hz] at hcnt
      exact .inr (.inr ⟨hcnt, hfree, _, ownAcceptance_pend i _, hz⟩)
    · rw [if_neg hz] at hcnt
      exact absurd hcnt hne
  · exact .inr (.inl (hb.resolve_left hne))

/-- Settles O36, counter by counter. -/
theorem countersChangeOnlyAtTheirEvents : Obligations.CountersChangeOnlyAtTheirEvents :=
  fun _ _ h => ⟨step_msgCnt_change h, step_blkidx_change h, step_blkcnt_change h⟩

end Sys2Proof.Machine
end

/-! ### STATUS, the reset values and `irq` -/
section

namespace Sys2Proof.Machine

/-- The eight flags of STATUS, bit by bit (R25). -/
theorem statusWord_flags (s : State) :
    (statusWord s).getLsbD 0 = busy s ∧ (statusWord s).getLsbD 1 = s.done ∧ (statusWord s).getLsbD 2 = s.err ∧
      (statusWord s).getLsbD 3 = keyValid s ∧ (statusWord s).getLsbD 4 = msgActive s ∧
      (statusWord s).getLsbD 5 = msgDir s ∧ (statusWord s).getLsbD 6 = s.doutValid ∧
      (statusWord s).getLsbD 7 = s.msgDone := by
  simp only [statusWord, BitVec.getLsbD_setWidth, BitVec.append_ofBool, BitVec.getLsbD_concat_zero,
    BitVec.getLsbD_concat_succ]
  simp

/-- The three fields of STATUS above its flags (R25). -/
theorem statusWord_fields (s : State) :
    (statusWord s).extractLsb' 8 4 = s.keyWr ∧ (statusWord s).extractLsb' 12 4 = s.dinWr ∧
      (statusWord s).extractLsb' 16 4 = s.errcode := by
  unfold statusWord
  refine ⟨?_, ?_, ?_⟩ <;> rw [BitVec.extractLsb'_setWidth_of_le (by decide)] <;>
    simp (disch := decide) only [BitVec.extractLsb'_append_eq_of_le, BitVec.extractLsb'_append_eq_of_add_le,
      BitVec.extractLsb'_eq_self, Nat.reduceSub]

/-- STATUS has nothing above its twenty bits (R25). -/
theorem statusWord_reserved (s : State) : (statusWord s).extractLsb' 20 12 = 0#12 := by
  apply BitVec.eq_of_getLsbD_eq
  intro i hi
  simp [statusWord, BitVec.getLsbD_of_ge]

theorem msgActive_eq (s : State) : msgActive s = decide (s.fsm = .msgEnc ∨ s.fsm = .msgDec) := by
  simp [msgActive]

/-- Settles O6: the flags, the three fields and the reserved bits together. -/
theorem statusWordHoldsItsFields : Obligations.StatusWordHoldsItsFields := by
  intro s
  obtain ⟨hbusy, hdone, herr, hkey, hactive, hdir, hdv, hmd⟩ := statusWord_flags s
  obtain ⟨hkw, hdw, hcode⟩ := statusWord_fields s
  exact ⟨hbusy, hdone, herr, hkey, hactive.trans (msgActive_eq s), hdir, hdv, hmd, hkw, hdw, hcode, statusWord_reserved s⟩

/-- Every round key of the zero schedule is the zero block (R40). -/
@[simp] theorem schedule_get_zero (r : Fin 11) : Schedule.zero.get r = Block.zero := by
  fin_cases r <;> rfl

@[simp] theorem block_byte_zero (j : Fin 16) : Block.zero.byte j = 0x00#8 := by
  simp [Block.byte, Block.entry, Block.zero]

/-- Settles O29: the table of R49, row by row. -/
theorem resetValuesAreTheTabledOnes : Obligations.ResetValuesAreTheTabledOnes := by
  refine ⟨rfl, rfl, rfl, rfl, rfl, rfl, rfl, rfl, fun j => ?_, rfl, rfl, rfl, rfl, rfl, fun r j => ?_, rfl, rfl, rfl⟩
  · simp [State.reset]
  · simp [State.reset]

/-- An error raises `irq` as far as it is enabled (R43). -/
theorem irq_raiseError (c : ErrCode) (s : State) : irq (raiseError c s) = s.irqEn := by
  simp [irq]

/-- A completion raises `irq` as far as it is enabled (R43, R212). -/
theorem irq_complete {s : State} {p : Pending} (h : s.pend = some p) : irq (complete s) = s.irqEn := by
  obtain ⟨-, -, hen, -⟩ := ownCompletion_frame p.op p s
  simp [irq, complete_pending h, hen]

/-- Settles O40: `irq` after a completion, after an error, when not enabled, and after CLEAR. -/
theorem irqFollowsDoneAndErr : Obligations.IrqFollowsDoneAndErr := by
  refine ⟨fun s => rfl, fun s p hp hen => ?_, fun s c hen => ?_, fun s hen => ?_, fun s => ?_⟩
  · rw [irq_complete hp, hen]
  · rw [irq_raiseError, hen]
  · simp [irq, hen]
  · simp [irq]

end Sys2Proof.Machine
end

/-! ### Family 20_memory, the register window

Every transaction is of one of two kinds: a malformed one, refused with BUS, or one at some register's own offset, for which
`access_read_reg` and `access_write_reg` say what happens. -/
section

namespace Sys2Proof.Machine

/-- The legal offsets are the offsets of the nineteen registers (R73, R109). -/
theorem exists_offsetOf_of_legal {off : Offset} (h : legalOffset off) : ∃ r, off = offsetOf r :=
  (decodeOffset_of_legal h).imp fun _ => eq_offsetOf_of_decodeOffset

/-- A read at an offset of no register is refused (R74). -/
theorem access_read_illegal {off : Offset} (h : ¬ legalOffset off) (s : State) :
    access (.read off) s = .next (refuseAccess (.readData 0x00000000#32 true) s) := by
  obtain ⟨e, he⟩ := decodeOffset_of_illegal h
  rw [access, he]

/-- A write at an offset of no register, or without all four strobes, is refused (R74). -/
theorem access_write_malformed {off : Offset} {strb : BitVec 4} (h : ¬ (legalOffset off ∧ strb = 0xF#4)) (v : Word)
    (s : State) : access (.write off v strb) s = .next (refuseAccess (.writeDone true) s) := by
  by_cases hoff : legalOffset off
  · obtain ⟨r, hr⟩ := decodeOffset_of_legal hoff
    simp only [access, hr, if_neg fun hs => h ⟨hoff, hs⟩]
  · obtain ⟨e, he⟩ := decodeOffset_of_illegal hoff
    rw [access, he]

/-- Settles O4: a malformed transaction is refused, a well-formed one reads or writes the register at its offset, and no
register write, a command word's included, takes the acknowledgement back. -/
theorem malformedTransactionIsRefusedWithBus : Obligations.MalformedTransactionIsRefusedWithBus := by
  intro x s
  cases x with
  | read off =>
    refine ⟨fun h => access_read_illegal h s, fun h => ?_⟩
    obtain ⟨r, rfl⟩ := exists_offsetOf_of_legal h
    exact ⟨_, access_read_reg r s, .inr ⟨readReg r s, rfl⟩⟩
  | write off v strb =>
    refine ⟨fun h => access_write_malformed h v s, ?_⟩
    rintro ⟨hoff, rfl⟩
    obtain ⟨r, rfl⟩ := exists_offsetOf_of_legal hoff
    obtain ⟨t, ht, hresp⟩ := writeReg_next r v (answer (.writeDone false) s)
    exact ⟨t, (access_write_reg r v s).trans ht, .inl hresp⟩

/-- Settles O5: the read rule at each of the nineteen registers. -/
theorem readReturnsTheRegisterWithoutSideEffect : Obligations.ReadReturnsTheRegisterWithoutSideEffect := by
  intro s
  have hread (r : Reg) := access_read_reg r s
  exact ⟨hread .id, hread .ctrl, hread .cmd, hread .status, hread (.key 0), hread (.key 1), hread (.key 2), hread (.key 3),
    hread (.din 0), hread (.din 1), hread (.din 2), hread (.din 3), hread (.dout 0), hread (.dout 1), hread (.dout 2),
    hread (.dout 3), hread .blkcnt, hread .blkidx, hread .gfb⟩

/-- Settles O7: the write rule at each of the nineteen registers. -/
theorem writeHasItsTabledEffectOnly : Obligations.WriteHasItsTabledEffectOnly := by
  intro s v
  have hwrite (r : Reg) := access_write_reg r v s
  exact ⟨hwrite .id, hwrite .ctrl, hwrite .cmd, hwrite .status, hwrite (.key 0), hwrite (.key 1), hwrite (.key 2),
    hwrite (.key 3), hwrite (.din 0), hwrite (.din 1), hwrite (.din 2), hwrite (.din 3), hwrite (.dout 0),
    hwrite (.dout 1), hwrite (.dout 2), hwrite (.dout 3), hwrite .blkcnt, hwrite .blkidx, hwrite .gfb⟩

/-- `BASE` lies on a 256-byte boundary (R7). -/
theorem base_mod_256 : Config.base % 256 = 0 :=
  Nat.mul_mod_right 256 Config.basePage

/-- The address of a window offset is that offset's (R82). -/
@[simp] theorem windowOffset_busAddress (off : Offset) : windowOffset (busAddress off) = some off := by
  have hin : Config.base ≤ busAddress off ∧ busAddress off < Config.base + 256 :=
    ⟨Nat.le_add_right _ _, Nat.add_lt_add_left off.isLt _⟩
  rw [windowOffset, if_pos hin, busAddress, Nat.add_sub_cancel_left, BitVec.ofNat_toNat, BitVec.setWidth_eq]

/-- An address below the window or past its 256 bytes has no offset (R70). -/
theorem windowOffset_outside {a : Nat} (h : a < Config.base ∨ Config.base + 256 ≤ a) : windowOffset a = none :=
  if_neg (by omega)

/-- Reset wins over every other input of the port (R342). -/
theorem eventOf_reset {p : PortInputs} (h : p.rstN = false) : eventOf p = .reset := by
  simp [eventOf, h]

/-- Outside an access phase there is no transaction (R71). -/
theorem eventOf_idle {p : PortInputs} (hrst : p.rstN = true) (h : ¬ (p.psel = true ∧ p.penable = true)) :
    eventOf p = .idle := by
  simp [eventOf, hrst, h]

/-- The edge that ends an access phase is the transaction the port names (R71). -/
theorem eventOf_access {p : PortInputs} (hrst : p.rstN = true) (hsel : p.psel = true) (hen : p.penable = true) :
    eventOf p = .access (if p.pwrite then .write p.paddr p.pwdata p.pstrb else .read p.paddr) := by
  simp [eventOf, hrst, hsel, hen]

/-- Settles O41: the window at BASE, then the three kinds of clock edge; `eventOf` does not read `pprot` (R313). -/
theorem windowAndPortMapOntoTransactions : Obligations.WindowAndPortMapOntoTransactions := by
  refine ⟨base_mod_256, windowOffset_busAddress, fun _ => windowOffset_outside, fun _ _ => rfl, fun _ => eventOf_reset,
    fun _ => eventOf_idle, fun p hrst hsel hen => ?_⟩
  rw [eventOf_access hrst hsel hen]
  exact ⟨fun hw => by rw [if_pos hw], fun hr => by rw [hr]; rfl⟩

end Sys2Proof.Machine
end

/-! ### Family 30_encoding, command words and register offsets

A decoder answers `x` exactly for the word that the encoder gives `x`; the statements about words and offsets are read off these
equivalences. -/
section

namespace Sys2Proof.Machine

/-- The opcode map and `opcode` are inverse to each other (R103). -/
theorem decodeOp_eq_some_iff (op : BitVec 4) (i : Instr) : decodeOp op = some i ↔ op = opcode i := by
  revert op
  cases i <;> decide

/-- The opcode map has a command exactly up to 0xC (R103). -/
theorem exists_decodeOp_iff (op : BitVec 4) : (∃ i, decodeOp op = some i) ↔ op.toNat ≤ 0xC := by
  rw [← Option.isSome_iff_exists]
  revert op
  decide

/-- A word decodes by two checks: RES is zero, and the opcode map has OP (R101). -/
theorem decode_eq_ok_iff (v : Word) (i : Instr) :
    decode v = .ok i ↔ v.extractLsb' 4 28 = 0#28 ∧ decodeOp (v.extractLsb' 0 4) = some i := by
  unfold decode
  by_cases hres : v.extractLsb' 4 28 = 0#28
  · cases decodeOp (v.extractLsb' 0 4) <;> simp [hres]
  · simp [hres]

/-- A word is RES followed by OP (R101). -/
theorem res_append_op (v : Word) : v.extractLsb' 4 28 ++ v.extractLsb' 0 4 = v :=
  (BitVec.extractLsb'_append_extractLsb'_eq_extractLsb' rfl).trans BitVec.extractLsb'_eq_self

/-- A command's word is the one with RES zero and the command's opcode for OP (R100). -/
theorem eq_encode_iff (v : Word) (i : Instr) :
    v = encode i ↔ v.extractLsb' 4 28 = 0#28 ∧ v.extractLsb' 0 4 = opcode i := by
  constructor
  · rintro rfl
    cases i <;> decide
  · rintro ⟨hres, hop⟩
    rw [encode, ← hres, ← hop, res_append_op]

/-- The decoder and the encoder of command words agree in both directions (R100, R101). -/
theorem decode_eq_ok_iff_eq_encode (v : Word) (i : Instr) : decode v = .ok i ↔ v = encode i := by
  rw [decode_eq_ok_iff, decodeOp_eq_some_iff, eq_encode_iff]

@[simp] theorem decode_encode (i : Instr) : decode (encode i) = .ok i :=
  (decode_eq_ok_iff_eq_encode _ i).2 rfl

/-- The decoder accepts exactly the legal words (R101). -/
theorem exists_decode_iff (v : Word) : (∃ i, decode v = .ok i) ↔ legalWord v := by
  simp only [decode_eq_ok_iff, exists_and_left, exists_decodeOp_iff]

/-- An illegal word written to CMD raises ILLEGAL_CMD, whatever the state (R233). -/
theorem writeCmd_illegal {v : Word} (h : ¬ legalWord v) (s : State) :
    writeCmd v s = .next (raiseError .illegalCmd s) := by
  cases hd : decode v with
  | ok i => exact absurd ((exists_decode_iff v).1 ⟨i, hd⟩) h
  | error e => rw [writeCmd, hd]

/-- Settles O1: decoding against the encoder, legality, and what an illegal word raises. -/
theorem decoderAcceptsExactlyTheLegalWords : Obligations.DecoderAcceptsExactlyTheLegalWords := fun v =>
  ⟨decode_eq_ok_iff_eq_encode v, exists_decode_iff v, writeCmd_illegal⟩

/-- A command's word, handed over as the number the opcode table prints, is read as that command (R105). -/
theorem decodeTableWord_encode (i : Instr) : decodeTableWord 32 (encode i).toNat = some i := by
  have hword : BitVec.ofNat 32 ((encode i).toNat % 2 ^ 32) = encode i := by
    rw [Nat.mod_eq_of_lt (encode i).isLt, BitVec.ofNat_toNat, BitVec.setWidth_eq]
  rw [decodeTableWord, if_pos (Nat.le_refl 32), hword, decode_encode]

/-- With RES zero, an OP that the opcode map lacks is rejected as reserved (R104). -/
theorem decode_reservedOpcode {v : Word} (hres : v.extractLsb' 4 28 = 0#28) (hop : decodeOp (v.extractLsb' 0 4) = none) :
    decode v = .error .reservedOpcode := by
  simp [decode, hres, hop]

/-- Settles O2: the thirteen words are the encodings of the commands, the last three have a reserved OP. -/
theorem opcodeMapReadsTheThirteenWords : Obligations.OpcodeMapReadsTheThirteenWords :=
  ⟨decode_encode .nop, decodeTableWord_encode .nop, decode_encode .expandKey, decodeTableWord_encode .expandKey,
    decode_encode .encBlock, decodeTableWord_encode .encBlock, decode_encode .decBlock, decodeTableWord_encode .decBlock,
    decode_encode .msgStartEnc, decodeTableWord_encode .msgStartEnc, decode_encode .msgStartDec,
    decodeTableWord_encode .msgStartDec, decode_encode .msgNext, decodeTableWord_encode .msgNext, decode_encode .msgAbort,
    decodeTableWord_encode .msgAbort, decode_encode .sbox, decodeTableWord_encode .sbox, decode_encode .invSbox,
    decodeTableWord_encode .invSbox, decode_encode .gfInv, decodeTableWord_encode .gfInv, decode_encode .gfMul,
    decodeTableWord_encode .gfMul, decode_encode .zeroize, decodeTableWord_encode .zeroize,
    decode_reservedOpcode rfl rfl, decode_reservedOpcode rfl rfl, decode_reservedOpcode rfl rfl⟩

/-- The offset decoder answers a register exactly at that register's offset (R109). -/
theorem decodeOffset_eq_ok_iff (off : Offset) (r : Reg) : decodeOffset off = .ok r ↔ off = offsetOf r := by
  constructor
  · exact eq_offsetOf_of_decodeOffset
  · rintro rfl
    exact decodeOffset_offsetOf r

/-- Settles O3: the offset decoder reads the offsets back; the names and offsets are the rows of R109's table. -/
theorem registerNamesStandAtTheirOffsets : Obligations.RegisterNamesStandAtTheirOffsets :=
  ⟨decodeOffset_eq_ok_iff, by decide⟩

end Sys2Proof.Machine
end

/-! ### Family 30_encoding, host scripts -/
section

namespace Sys2Proof.Machine

/-- Every statement but WAIT is performed as its transactions (R106, R107). -/
theorem stmtEvents_of_ne_wait {stmt : Stmt} (h : stmt ≠ .wait) :
    stmtEvents stmt = (expandStmt 0 stmt).map Event.access := by
  cases stmt with
  | wait => exact absurd rfl h
  | w | r | cmd | ldkey | ldblk | rdout | clear | irqon | irqoff => rfl

/-- A WAIT is encoded as one read of STATUS and the further ones it takes (R107, R108). -/
theorem scriptText_wait (furthers : List Nat) :
    scriptText furthers [.wait] = List.replicate (furthers.headD 0 + 1) "R 0C".toList := by
  have hread : txnText (.read (offsetOf .status)) = "R 0C".toList := rfl
  simp only [scriptText, scriptTxns, expandStmt, List.append_nil, List.map_replicate, hread]

/-- Settles O50: the expansions are the tables of R106 and R107, the first two encodings the examples of R108. -/
theorem pseudoStatementsExpandAsTabled : Obligations.PseudoStatementsExpandAsTabled :=
  ⟨fun _ _ _ => ⟨rfl, rfl⟩, fun _ _ => rfl, fun _ _ => ⟨rfl, rfl⟩, fun _ => rfl, fun _ => rfl, fun _ => ⟨rfl, rfl, rfl⟩,
    rfl, fun _ => stmtEvents_of_ne_wait, rfl, rfl, fun n => scriptText_wait [n], scriptText_wait []⟩

end Sys2Proof.Machine
end

/-! ### Family 30_encoding, the loop of WAIT

A poll counts the pending command's waiting down; then the completion comes before it, and the next read ends it. -/
section

namespace Sys2Proof.Machine

section

variable {s : State} {rest : List Event}

/-- A run takes its first step, then the others. -/
theorem core_run_succ {M : Host.Core} {a b : M.State} (n : Nat) (h : M.step a = .next b) : M.run (n + 1) a = M.run n b := by
  rw [Host.Core.run, h]

theorem run_succ {t : State} (n : Nat) (h : step s = .next t) :
    Host.Core.run Sys2Proof.core (n + 1) s = Host.Core.run Sys2Proof.core n t :=
  core_run_succ (M := Sys2Proof.core) n h

/-- A completion keeps the events to come (R212). -/
theorem complete_script (s : State) : (complete s).script = s.script := by
  cases hp : s.pend with
  | none => rw [complete, hp]
  | some p =>
    obtain ⟨-, -, -, -, -, -, -, -, -, -, -, -, -, hscript, -⟩ := ownCompletion_frame p.op p s
    rw [complete_pending hp, finish_script, hscript]

/-- A poll with nothing pending reads STATUS once and is over (R107). -/
theorem step_poll_idle (h : s.script = .pollBusy :: rest) (hp : s.pend = none) :
    step s = .next (answer (.readData (statusWord s) false) (tick (takeEvent rest s))) := by
  rw [step_poll h (by simp [completionDue, hp]), if_neg (by simp [busy, hp])]

/-- A poll with a command waiting reads STATUS and stays the next event (R107). -/
theorem step_poll_waiting {p : Pending} (h : s.script = .pollBusy :: rest) (hp : s.pend = some p)
    (hd : completionDue s = false) : step s = .next (answer (.readData (statusWord s) false) (tick s)) := by
  rw [step_poll h hd, if_pos (by simp [busy, hp])]

/-- The poll has ended: what followed it is next, nothing is pending, and the last read gave STATUS with BUSY 0 (R107). -/
def PollOver (rest : List Event) (t : State) : Prop :=
  t.script = rest ∧ t.pend = none ∧ t.resp = some (.readData (statusWord t) false) ∧ (statusWord t).getLsbD 0 = false

/-- With nothing pending the poll takes one step. -/
theorem run_poll_idle (h : s.script = .pollBusy :: rest) (hp : s.pend = none) :
    ∃ t, Host.Core.run Sys2Proof.core 1 s = .next t ∧ PollOver rest t := by
  have hbusy : (statusWord s).getLsbD 0 = false := by rw [(statusWord_flags s).1, busy, hp]; rfl
  exact ⟨_, run_succ 0 (step_poll_idle h hp), rfl, hp, rfl, hbusy⟩

/-- With a command pending the poll takes a read for each step to wait, the completion, and the read that shows BUSY = 0
(R107, R246). -/
theorem run_poll_pending {p : Pending} (h : s.script = .pollBusy :: rest) (hp : s.pend = some p) :
    ∃ t, Host.Core.run Sys2Proof.core (s.wait + 2) s = .next t ∧ PollOver rest t := by
  generalize hw : s.wait = w
  induction w generalizing s with
  | zero =>
    have hstep := step_completion (s := s) (by simp [completionDue, hp, hw]) (by simp [resetNext, h])
    have hidle : (complete s).pend = none := by rw [complete_pending hp, finish_pend]
    rw [run_succ 1 hstep]
    exact run_poll_idle ((complete_script s).trans h) hidle
  | succ w ih =>
    rw [run_succ (w + 2) (step_poll_waiting h hp (by simp [completionDue, hw]))]
    exact ih h hp (by simp [hw])

end

/-- Settles O58: with nothing pending the first read ends the poll, with a command pending the run counts its waiting down. -/
theorem waitReadsStatusUntilBusyIsClear : Obligations.WaitReadsStatusUntilBusyIsClear := by
  intro s rest h
  obtain hp | ⟨p, hp⟩ : s.pend = none ∨ ∃ p, s.pend = some p := Option.eq_none_or_eq_some _
  · have hnone : ¬ s.pend.isSome = true := by simp [hp]
    simp only [if_neg hnone]
    exact ⟨fun _ => step_poll_idle h hp, run_poll_idle h hp⟩
  · have hsome : s.pend.isSome = true := by simp [hp]
    simp only [if_pos hsome, ← h]
    exact ⟨step_poll_waiting h hp, run_poll_pending h hp⟩

end Sys2Proof.Machine
end

/-! ### Family 40_gf_arith, the field of bytes

Every byte is made from 1 by `xtime` and XOR (`byte_induction`), and `gmul` respects both in each argument; the ring laws follow
by that induction. -/
section

namespace Sys2Proof.Machine

/-- A byte is `x` times its upper seven bits, plus its lowest bit. -/
theorem xtime_shiftRight_xor (a : Byte) : xtime (a >>> 1) ^^^ (if a.getLsbD 0 then 0x01#8 else 0x00#8) = a := by
  revert a
  decide +kernel

/-- Every byte is made from 1 by `xtime` and field addition. -/
theorem byte_induction {P : Byte → Prop} (one : P 0x01#8) (mulX : ∀ a, P a → P (xtime a))
    (add : ∀ a b, P a → P b → P (a ^^^ b)) (a : Byte) : P a := by
  have zero : P 0x00#8 := add _ _ one one
  induction h : a.toNat using Nat.strong_induction_on generalizing a with
  | h n ih =>
    subst h
    by_cases ha : a = 0x00#8
    · rwa [ha]
    · have hpos : 0 < a.toNat := Nat.pos_of_ne_zero fun h => ha (BitVec.eq_of_toNat_eq h)
      have hhalf : (a >>> 1).toNat < a.toNat := by
        rw [BitVec.toNat_ushiftRight, Nat.shiftRight_one]
        exact Nat.div_lt_self hpos (by decide)
      rw [← xtime_shiftRight_xor a]
      refine add _ _ (mulX _ (ih _ hhalf _ rfl)) ?_
      split
      · exact one
      · exact zero

/-- Adding `a` once for each of two bits is adding it for their sum, since twice `a` is 0. -/
theorem ite_xor_bits (p q a : Byte) (x y : Bool) :
    (if x ^^ y then p ^^^ q ^^^ a else p ^^^ q) = (if x then p ^^^ a else p) ^^^ (if y then q ^^^ a else q) := by
  cases x with
  | false =>
    cases y with
    | false => rfl
    | true => exact BitVec.xor_assoc p q a
  | true =>
    cases y with
    | false =>
      calc p ^^^ q ^^^ a = p ^^^ a ^^^ q := by rw [BitVec.xor_assoc, BitVec.xor_comm q, ← BitVec.xor_assoc]
    | true =>
      calc p ^^^ q = p ^^^ (a ^^^ a) ^^^ q := by rw [BitVec.xor_self, BitVec.xor_zero]
        _ = p ^^^ a ^^^ (q ^^^ a) := by rw [BitVec.xor_comm q, ← BitVec.xor_assoc, ← BitVec.xor_assoc]

/-- The loop of R123 is linear in the multiplier. -/
theorem gmulLoop_xor_multiplier (b c : Byte) (n i : Nat) (p q a : Byte) :
    gmulLoop (b ^^^ c) n i (p ^^^ q) a = gmulLoop b n i p a ^^^ gmulLoop c n i q a := by
  induction n generalizing i p q a with
  | zero => rfl
  | succ n ih =>
    simp only [gmulLoop]
    rw [← ih, BitVec.getLsbD_xor]
    congr 1
    exact ite_xor_bits p q a (b.getLsbD i) (c.getLsbD i)

/-- `xtime` commutes with the loop of R123. -/
theorem gmulLoop_xtime (b : Byte) (n i : Nat) (p a : Byte) :
    gmulLoop b n i (xtime p) (xtime a) = xtime (gmulLoop b n i p a) := by
  induction n generalizing i p a with
  | zero => rfl
  | succ n ih =>
    simp only [gmulLoop]
    rw [← ih, apply_ite xtime, xtime_xor]

/-- Multiplication distributes over field addition on the right (R124). -/
theorem gmul_xor_right (a b c : Byte) : gmul a (b ^^^ c) = gmul a b ^^^ gmul a c :=
  gmulLoop_xor_multiplier b c 8 0 0x00#8 0x00#8 a

theorem gmul_xtime_left (a b : Byte) : gmul (xtime a) b = xtime (gmul a b) :=
  gmulLoop_xtime b 8 0 0x00#8 a

@[simp] theorem gmul_zero_left (b : Byte) : gmul 0x00#8 b = 0x00#8 := by
  have h := gmul_xor_left 0x00#8 0x00#8 b
  rwa [BitVec.xor_self, BitVec.xor_self] at h

@[simp] theorem gmul_zero_right (a : Byte) : gmul a 0x00#8 = 0x00#8 := by
  have h := gmul_xor_right a 0x00#8 0x00#8
  rwa [BitVec.xor_self, BitVec.xor_self] at h

@[simp] theorem gmul_one_right (a : Byte) : gmul a 0x01#8 = a := by
  induction a using byte_induction with
  | one => rfl
  | mulX a ih => rw [gmul_xtime_left, ih]
  | add a b iha ihb => rw [gmul_xor_left, iha, ihb]

@[simp] theorem gmul_one_left (b : Byte) : gmul 0x01#8 b = b := by
  revert b
  decide +kernel

theorem gmul_xtime_right (a b : Byte) : gmul a (xtime b) = xtime (gmul a b) := by
  induction a using byte_induction with
  | one => rw [gmul_one_left, gmul_one_left]
  | mulX a ih => rw [gmul_xtime_left, ih, gmul_xtime_left]
  | add a c iha ihc => rw [gmul_xor_left, iha, ihc, ← xtime_xor, ← gmul_xor_left]

/-- Multiplication is commutative (R124). -/
theorem gmul_comm (a b : Byte) : gmul a b = gmul b a := by
  induction a using byte_induction with
  | one => rw [gmul_one_left, gmul_one_right]
  | mulX a ih => rw [gmul_xtime_left, ih, gmul_xtime_right]
  | add a c iha ihc => rw [gmul_xor_left, iha, ihc, gmul_xor_right]

/-- Multiplication is associative (R124). -/
theorem gmul_assoc (a b c : Byte) : gmul (gmul a b) c = gmul a (gmul b c) := by
  induction a using byte_induction with
  | one => rw [gmul_one_left, gmul_one_left]
  | mulX a ih => rw [gmul_xtime_left, gmul_xtime_left, ih, gmul_xtime_left]
  | add a d iha ihd => rw [gmul_xor_left, gmul_xor_left, iha, ihd, ← gmul_xor_left]

/-! Powers. Squaring distributes over addition, so the 256th power does, and it is the identity; the 255th power is then
idempotent, which only 0 and 1 are. -/

/-- The power of a byte under `gmul`. -/
def gpow (a : Byte) (n : Nat) : Byte := (fun y => gmul y a)^[n] 0x01#8

theorem gpow_succ (a : Byte) (n : Nat) : gpow a (n + 1) = gmul (gpow a n) a :=
  Function.iterate_succ_apply' _ n _

@[simp] theorem gpow_one (a : Byte) : gpow a 1 = a := gmul_one_left a

/-- The product of two powers adds the exponents. -/
theorem gmul_gpow (a : Byte) (m n : Nat) : gmul (gpow a m) (gpow a n) = gpow a (m + n) := by
  induction n with
  | zero => exact gmul_one_right _
  | succ n ih => rw [gpow_succ, ← gmul_assoc, ih, ← Nat.add_assoc, gpow_succ]

theorem one_gpow (n : Nat) : gpow 0x01#8 n = 0x01#8 := by
  induction n with
  | zero => rfl
  | succ n ih => rw [gpow_succ, ih, gmul_one_left]

/-- The power of a product is the product of the powers. -/
theorem gpow_gmul (a b : Byte) (n : Nat) : gpow (gmul a b) n = gmul (gpow a n) (gpow b n) := by
  induction n with
  | zero => exact (gmul_one_left 0x01#8).symm
  | succ n ih =>
    calc gpow (gmul a b) (n + 1)
        = gmul (gmul (gpow a n) (gpow b n)) (gmul a b) := by rw [gpow_succ, ih]
      _ = gmul (gmul (gpow a n) a) (gmul (gpow b n) b) := by
          rw [gmul_assoc, ← gmul_assoc (gpow b n), gmul_comm (gpow b n) a, gmul_assoc a, ← gmul_assoc (gpow a n)]
      _ = gmul (gpow a (n + 1)) (gpow b (n + 1)) := by rw [gpow_succ, gpow_succ]

/-- In characteristic 2 the mixed terms of a square cancel. -/
theorem gmul_self_xor (a b : Byte) : gmul (a ^^^ b) (a ^^^ b) = gmul a a ^^^ gmul b b := by
  rw [gmul_xor_right, gmul_xor_left, gmul_xor_left, gmul_comm b a, BitVec.xor_assoc, ← BitVec.xor_assoc (gmul a b),
    BitVec.xor_self, BitVec.zero_xor]

/-- A power whose exponent is a power of 2 distributes over field addition. -/
theorem gpow_two_pow_xor (a b : Byte) (k : Nat) : gpow (a ^^^ b) (2 ^ k) = gpow a (2 ^ k) ^^^ gpow b (2 ^ k) := by
  induction k with
  | zero => simp only [Nat.pow_zero, gpow_one]
  | succ k ih => rw [Nat.pow_succ, Nat.mul_two, ← gmul_gpow, ih, gmul_self_xor, gmul_gpow, gmul_gpow]

theorem gmul_two_left (a : Byte) : gmul 0x02#8 a = xtime a := by
  rw [show 0x02#8 = xtime 0x01#8 from rfl, gmul_xtime_left, gmul_one_left]

/-- Every byte is its own 256th power: 1 and `x` are, and with them what is made from them. -/
theorem gpow_256 (a : Byte) : gpow a 256 = a := by
  induction a using byte_induction with
  | one => exact one_gpow 256
  | mulX a ih =>
    have hx : gpow 0x02#8 256 = 0x02#8 := by decide +kernel
    rw [← gmul_two_left, gpow_gmul, hx, ih]
  | add a b iha ihb =>
    have hadd : gpow (a ^^^ b) 256 = gpow a 256 ^^^ gpow b 256 := gpow_two_pow_xor a b 8
    rw [hadd, iha, ihb]

/-- The idempotents are 0 and 1, checked on each of the 256 bytes. -/
theorem eq_zero_or_one_of_gmul_self : ∀ {u : Byte}, gmul u u = u → u = 0x00#8 ∨ u = 0x01#8 := by decide +kernel

/-- The 255th power of a byte other than 0 is 1. -/
theorem gpow_255 {a : Byte} (ha : a ≠ 0x00#8) : gpow a 255 = 0x01#8 := by
  have hidem : gmul (gpow a 255) (gpow a 255) = gpow a 255 :=
    calc gmul (gpow a 255) (gpow a 255)
        = gmul (gpow a 256) (gpow a 254) := by rw [gmul_gpow, gmul_gpow]
      _ = gmul (gpow a 1) (gpow a 254) := by rw [gpow_256, gpow_one]
      _ = gpow a 255 := gmul_gpow a 1 254
  refine (eq_zero_or_one_of_gmul_self hidem).resolve_left fun hzero => ha ?_
  calc a = gmul (gpow a 255) a := by rw [← gpow_succ, gpow_256]
    _ = 0x00#8 := by rw [hzero, gmul_zero_left]

/-! Inverses. -/

/-- The squarings and products of `ginv` add up to the exponent 254 (R126). -/
theorem ginv_eq_gpow (a : Byte) : ginv a = gpow a 254 := by
  have hsquare : gmul a a = gpow a 2 := by rw [gpow_succ, gpow_one]
  simp only [ginv, hsquare, gmul_gpow, Nat.reduceAdd]

@[simp] theorem ginv_zero : ginv 0x00#8 = 0x00#8 := by
  rw [ginv_eq_gpow, gpow_succ, gmul_zero_right]

/-- A byte other than 0 times its inverse is 1 (R126). -/
theorem gmul_ginv {a : Byte} (ha : a ≠ 0x00#8) : gmul a (ginv a) = 0x01#8 := by
  rw [ginv_eq_gpow, gmul_comm, ← gpow_succ, gpow_255 ha]

/-- A factor other than 0 can be cancelled: multiply by its inverse. -/
theorem ginv_gmul_cancel_left {a : Byte} (ha : a ≠ 0x00#8) (b : Byte) : gmul (ginv a) (gmul a b) = b := by
  rw [← gmul_assoc, gmul_comm (ginv a), gmul_ginv ha, gmul_one_left]

/-- There are no zero divisors (R124). -/
theorem eq_zero_or_eq_zero_of_gmul_eq_zero {a b : Byte} (h : gmul a b = 0x00#8) : a = 0x00#8 ∨ b = 0x00#8 := by
  by_cases ha : a = 0x00#8
  · exact .inl ha
  · exact .inr (by rw [← ginv_gmul_cancel_left ha b, h, gmul_zero_right])

/-- Settles O42: the laws of `gmul`, by induction on how a byte is made from 1, and by its inverses. -/
theorem gmulIsFieldMultiplication : Obligations.GmulIsFieldMultiplication := fun a b c =>
  ⟨gmul_zero_right a, gmul_zero_left a, gmul_one_right a, gmul_comm a b, (gmul_assoc a b c).symm, gmul_xor_right a b c,
    eq_zero_or_eq_zero_of_gmul_eq_zero⟩

/-- The inverse is unique (R126). -/
theorem gmul_eq_one_iff {a : Byte} (ha : a ≠ 0x00#8) (y : Byte) : gmul a y = 0x01#8 ↔ y = ginv a := by
  constructor
  · intro h
    rw [← ginv_gmul_cancel_left ha y, h, gmul_one_right]
  · rintro rfl
    exact gmul_ginv ha

/-- Settles O43: uniqueness by cancellation, the power by adding exponents. -/
theorem ginvIsTheMultiplicativeInverse : Obligations.GinvIsTheMultiplicativeInverse :=
  ⟨fun _ y ha => gmul_eq_one_iff ha y, ginv_eq_gpow, ginv_zero⟩

/-! Multiplication by the powers of `x` below 8 is repeated `xtime` (R125). -/

theorem gmul_two (a : Byte) : gmul a 0x02#8 = xtime a := by
  rw [gmul_comm, gmul_two_left]

theorem gmul_four (a : Byte) : gmul a 0x04#8 = xtime (xtime a) := by
  rw [← gmul_two a]
  exact gmul_xtime_right a 0x02#8

theorem gmul_eight (a : Byte) : gmul a 0x08#8 = xtime (xtime (xtime a)) := by
  rw [← gmul_four a]
  exact gmul_xtime_right a 0x04#8

/-- Settles O44: each constant is an XOR of 1, 2, 4 and 8, over which multiplication distributes. -/
theorem constantMultiplesReduceToXtime : Obligations.ConstantMultiplesReduceToXtime := by
  intro a
  have h3 : (0x03#8 : Byte) = 0x02#8 ^^^ 0x01#8 := rfl
  have h9 : (0x09#8 : Byte) = 0x08#8 ^^^ 0x01#8 := rfl
  have hB : (0x0B#8 : Byte) = 0x08#8 ^^^ 0x02#8 ^^^ 0x01#8 := rfl
  have hD : (0x0D#8 : Byte) = 0x08#8 ^^^ 0x04#8 ^^^ 0x01#8 := rfl
  have hE : (0x0E#8 : Byte) = 0x08#8 ^^^ 0x04#8 ^^^ 0x02#8 := rfl
  rw [h3, h9, hB, hD, hE]
  simp only [gmul_xor_right, gmul_one_right, gmul_two, gmul_four, gmul_eight, and_self]

end Sys2Proof.Machine
end

/-! ### Family 40_gf_arith, the S-box

The S-box and its inverse undo each other because `ginv` undoes itself and the two affine transforms undo each other. -/
section

namespace Sys2Proof.Machine

theorem ginv_ne_zero {a : Byte} (ha : a ≠ 0x00#8) : ginv a ≠ 0x00#8 := by
  intro h
  have hone := gmul_ginv ha
  rw [h, gmul_zero_right] at hone
  cases hone

/-- A byte is the inverse of its inverse (R126). -/
@[simp] theorem ginv_ginv (a : Byte) : ginv (ginv a) = a := by
  by_cases ha : a = 0x00#8
  · rw [ha, ginv_zero, ginv_zero]
  · have hone : gmul (ginv a) a = 0x01#8 := by rw [gmul_comm, gmul_ginv ha]
    exact ((gmul_eq_one_iff (ginv_ne_zero ha) a).1 hone).symm

/-- The inverse affine transform undoes the affine transform, checked on each of the 256 bytes (R130). -/
@[simp] theorem invAffine_affine (x : Byte) : invAffine (affine x) = x := by
  revert x
  decide +kernel

/-- On the finite set of bytes a left inverse is a right inverse. -/
@[simp] theorem affine_invAffine (y : Byte) : affine (invAffine y) = y := by
  have hleft : Function.LeftInverse invAffine affine := invAffine_affine
  exact hleft.rightInverse_of_surjective (Finite.surjective_of_injective hleft.injective) y

@[simp] theorem invSboxByte_sboxByte (x : Byte) : invSboxByte (sboxByte x) = x := by
  rw [invSboxByte, sboxByte, invAffine_affine, ginv_ginv]

@[simp] theorem sboxByte_invSboxByte (y : Byte) : sboxByte (invSboxByte y) = y := by
  rw [sboxByte, invSboxByte, ginv_ginv, affine_invAffine]

/-- A byte times its image under the inverse affine transform, or times that of its complement, is not 1; checked on each of
the 256 bytes. -/
theorem gmul_invAffine_ne_one :
    ∀ x : Byte, gmul x (invAffine x) ≠ 0x01#8 ∧ gmul x (invAffine (x ^^^ 0xFF#8)) ≠ 0x01#8 := by decide +kernel

/-- What the S-box gives is, undone by the inverse affine transform, an inverse. -/
theorem gmul_invAffine_sboxByte {x : Byte} (hx : x ≠ 0x00#8) : gmul x (invAffine (sboxByte x)) = 0x01#8 := by
  rw [sboxByte, invAffine_affine, gmul_ginv hx]

@[simp] theorem sboxByte_zero : sboxByte 0x00#8 = 0x63#8 := by
  rw [sboxByte, ginv_zero]
  rfl

/-- The S-box has no fixed and no opposite fixed point: a fixed point would have an inverse that it does not have (R132). -/
theorem sboxByte_ne (x : Byte) : sboxByte x ≠ x ∧ sboxByte x ≠ x ^^^ 0xFF#8 := by
  by_cases hx : x = 0x00#8
  · rw [hx, sboxByte_zero]
    decide
  · obtain ⟨hfixed, hopposite⟩ := gmul_invAffine_ne_one x
    have hone := gmul_invAffine_sboxByte hx
    exact ⟨fun h => hfixed (by rwa [h] at hone), fun h => hopposite (by rwa [h] at hone)⟩

/-- Settles O45: both round trips from those of `ginv` and the affine transforms, and no fixed points. -/
theorem sboxIsAPermutationWithoutFixedPoints : Obligations.SboxIsAPermutationWithoutFixedPoints := fun x =>
  ⟨invAffine_affine x, invSboxByte_sboxByte x, sboxByte_invSboxByte x, sboxByte_ne x⟩

end Sys2Proof.Machine
end

/-! ### Family 41_key_expansion

The last four words and the words `expandFrom` makes from them are one list. What follows its first word is again such a list,
one index on, so the recurrence of R154 holds of it by induction; the schedule is that list from the key's four columns on. -/
section

namespace Sys2Proof.Machine

@[simp] theorem expandFrom_length (n i : Nat) (last : Quad Column) : (expandFrom n i last).length = n := by
  induction n generalizing i last with
  | zero => rfl
  | succ n ih => rw [expandFrom, List.length_cons, ih]

@[simp] theorem scheduleWords_length (key : Block) : (scheduleWords key).length = 44 := by
  rw [scheduleWords, List.length_append, expandFrom_length, Quad.toList]
  rfl

/-- The word four on from word `k` of an expansion is `nextWord` of word `k` and word `k + 3`. -/
theorem getD_expandFrom (d : Column) {n k : Nat} (i : Nat) (last : Quad Column) (hk : k < n) :
    (last.toList ++ expandFrom n i last).getD (k + 4) d =
      nextWord (i + k) ((last.toList ++ expandFrom n i last).getD k d)
        ((last.toList ++ expandFrom n i last).getD (k + 3) d) := by
  induction n generalizing i last k with
  | zero => omega
  | succ n ih =>
    cases k with
    | zero => rfl
    | succ k =>
      have hnext := ih (i + 1) ⟨last.a1, last.a2, last.a3, nextWord i last.a0 last.a3⟩ (Nat.lt_of_succ_lt_succ hk)
      rwa [Nat.add_right_comm i 1 k] at hnext

theorem scheduleWord_eq_nextWord (key : Block) {i : Nat} (hlow : 4 ≤ i) (hhigh : i < 44) :
    scheduleWord key i = nextWord i (scheduleWord key (i - 4)) (scheduleWord key (i - 1)) := by
  obtain ⟨k, rfl⟩ := Nat.exists_eq_add_of_le' hlow
  have hword := getD_expandFrom (Quad.const 0x00#8) 4 key (show k < 40 by omega)
  rwa [Nat.add_comm 4 k] at hword

/-- The schedule begins with the key's columns. -/
theorem scheduleWord_key (key : Block) (j : Fin 4) : scheduleWord key j.val = key.get j := by
  fin_cases j <;> rfl

theorem keyExpansion_get (key : Block) (r : Fin 11) : (keyExpansion key).get r = roundKey key r.val := by
  fin_cases r <;> rfl

theorem roundKey_get (key : Block) (r : Nat) (j : Fin 4) : (roundKey key r).get j = scheduleWord key (4 * r + j.val) := by
  fin_cases j <;> rfl

theorem nextWord_of_mod_eq_zero {i : Nat} (h : i % 4 = 0) (v w : Column) :
    nextWord i v w = xorWord v (xorWord (subWord (rotWord w)) (rcon (i / 4))) := by
  rw [nextWord, if_pos h]

theorem nextWord_of_mod_ne_zero {i : Nat} (h : i % 4 ≠ 0) (v w : Column) : nextWord i v w = xorWord v w := by
  rw [nextWord, if_neg h]

/-- Settles O46: the recurrence holds of every expansion, and a round key's columns are read off the schedule. -/
theorem keyExpansionFollowsItsRecurrence : Obligations.KeyExpansionFollowsItsRecurrence := by
  intro key
  refine ⟨scheduleWords_length key, scheduleWord_key key, fun i hlow hhigh => ⟨fun h => ?_, fun h => ?_⟩, fun r j => ?_⟩
  · rw [scheduleWord_eq_nextWord key hlow hhigh, nextWord_of_mod_eq_zero h]
  · rw [scheduleWord_eq_nextWord key hlow hhigh, nextWord_of_mod_ne_zero h]
  · rw [keyExpansion_get, roundKey_get]

end Sys2Proof.Machine
end

/-! ### Family 42_block_cipher, the steps of a round

Each step of a round has an inverse. ShiftRows and InvShiftRows move an entry of a row forth and back. InvMixColumns is MixColumns
after its own square, and the square undoes itself, so MixColumns has order 4 and both round trips are the square taken twice. -/
section

namespace Sys2Proof.Machine

/-! ShiftRows and InvShiftRows. -/

@[simp] theorem entry_shiftRows (s : Block) (r c : Fin 4) : (shiftRows s).entry r c = s.entry r (c + r) := by
  rw [shiftRows, Block.entry, quad_get_ofFn, quad_get_ofFn]

@[simp] theorem entry_invShiftRows (s : Block) (r c : Fin 4) : (invShiftRows s).entry r c = s.entry r (c - r) := by
  rw [invShiftRows, Block.entry, quad_get_ofFn, quad_get_ofFn]

@[simp] theorem invShiftRows_shiftRows (s : Block) : invShiftRows (shiftRows s) = s :=
  block_ext_entry fun r c => by rw [entry_invShiftRows, entry_shiftRows, sub_add_cancel]

@[simp] theorem shiftRows_invShiftRows (s : Block) : shiftRows (invShiftRows s) = s :=
  block_ext_entry fun r c => by rw [entry_shiftRows, entry_invShiftRows, add_sub_cancel_right]

/-- A difference modulo 4, with the 4 added that keeps it from going below 0 (R176). -/
theorem fin_four_sub (c r : Fin 4) : c - r = ⟨(c.val + 4 - r.val) % 4, by omega⟩ := by
  apply Fin.ext
  rw [Fin.val_sub]
  dsimp only
  omega

/-- Byte `r + 4c` is row `r` of column `c` (R9). -/
theorem byte_row_add_column (s : Block) (r c : Fin 4) : s.byte ⟨r.val + 4 * c.val, by omega⟩ = s.entry r c := by
  rw [Block.byte]
  congr 1 <;> apply Fin.ext <;> dsimp only <;> omega

/-- Settles O47: the entries by the two definitions, the bytes from the entries, the round trips by `(c ± r) ∓ r = c`. -/
theorem shiftRowsMovesEachByteByItsFormula : Obligations.ShiftRowsMovesEachByteByItsFormula := by
  refine ⟨fun s r c => ⟨entry_shiftRows s r c, ?_⟩, fun s i => ?_,
    fun s => ⟨invShiftRows_shiftRows s, shiftRows_invShiftRows s⟩, rfl, rfl⟩
  · rw [entry_invShiftRows, fin_four_sub]
  · constructor
    · exact (entry_shiftRows s _ _).trans (byte_row_add_column s _ _).symm
    · refine (entry_invShiftRows s _ _).trans ?_
      rw [fin_four_sub]
      exact (byte_row_add_column s _ _).symm

/-! MixColumns and InvMixColumns. -/

/-- The constants of R174 and R177, as multipliers on the left. -/
theorem gmul_mixColumn_constants (a : Byte) :
    gmul 0x03#8 a = xtime a ^^^ a ∧
    gmul 0x09#8 a = xtime (xtime (xtime a)) ^^^ a ∧
    gmul 0x0B#8 a = xtime (xtime (xtime a)) ^^^ xtime a ^^^ a ∧
    gmul 0x0D#8 a = xtime (xtime (xtime a)) ^^^ xtime (xtime a) ^^^ a ∧
    gmul 0x0E#8 a = xtime (xtime (xtime a)) ^^^ xtime (xtime a) ^^^ xtime a := by
  obtain ⟨-, -, h3, h9, hB, hD, hE⟩ := constantMultiplesReduceToXtime a
  simp only [gmul_comm _ a]
  exact ⟨h3, h9, hB, hD, hE⟩

theorem byte_xor_left_comm (a b c : Byte) : a ^^^ (b ^^^ c) = b ^^^ (a ^^^ c) := by
  rw [← BitVec.xor_assoc, BitVec.xor_comm a, BitVec.xor_assoc]

/-- One byte of a MixColumns output column, from the input bytes of its own row and of the rows after it. -/
def mixByte (a b c d : Byte) : Byte := xtime (a ^^^ b) ^^^ b ^^^ c ^^^ d

/-- One byte of an InvMixColumns output column, likewise. -/
def invMixByte (a b c d : Byte) : Byte :=
  xtime (xtime (xtime (a ^^^ b ^^^ c ^^^ d))) ^^^ xtime (xtime (a ^^^ c)) ^^^ xtime (a ^^^ b) ^^^ b ^^^ c ^^^ d

/-- One byte of a column after MixColumns taken twice: 4 times its sum with the byte two rows on is added to it. -/
def mixSquareByte (a c : Byte) : Byte := xtime (xtime (a ^^^ c)) ^^^ a

/-- MixColumns twice, on one column. -/
def mixColumnSquare (s : Column) : Column :=
  ⟨mixSquareByte s.a0 s.a2, mixSquareByte s.a1 s.a3, mixSquareByte s.a2 s.a0, mixSquareByte s.a3 s.a1⟩

/-- The matrix of R174 is circulant. -/
theorem mixColumn_eq (s : Column) :
    mixColumn s = ⟨mixByte s.a0 s.a1 s.a2 s.a3, mixByte s.a1 s.a2 s.a3 s.a0, mixByte s.a2 s.a3 s.a0 s.a1,
      mixByte s.a3 s.a0 s.a1 s.a2⟩ := by
  simp only [mixColumn, mixByte, gmul_two_left, gmul_mixColumn_constants, xtime_xor, Quad.mk.injEq]
  refine ⟨?_, ?_, ?_, ?_⟩ <;> ac_rfl

/-- The matrix of R177 is circulant. -/
theorem invMixColumn_eq (s : Column) :
    invMixColumn s = ⟨invMixByte s.a0 s.a1 s.a2 s.a3, invMixByte s.a1 s.a2 s.a3 s.a0, invMixByte s.a2 s.a3 s.a0 s.a1,
      invMixByte s.a3 s.a0 s.a1 s.a2⟩ := by
  simp only [invMixColumn, invMixByte, gmul_mixColumn_constants, xtime_xor, Quad.mk.injEq]
  refine ⟨?_, ?_, ?_, ?_⟩ <;> ac_rfl

/-- `xtime` is additive, and the terms that occur twice cancel. -/
theorem mixByte_mixByte (a b c d : Byte) :
    mixByte (mixByte a b c d) (mixByte b c d a) (mixByte c d a b) (mixByte d a b c) = mixSquareByte a c := by
  simp only [mixByte, mixSquareByte, xtime_xor]
  simp only [BitVec.xor_comm, byte_xor_left_comm, BitVec.xor_assoc, xor_cancel_left]

theorem mixByte_mixSquareByte (a b c d : Byte) :
    mixByte (mixSquareByte a c) (mixSquareByte b d) (mixSquareByte c a) (mixSquareByte d b) = invMixByte a b c d := by
  simp only [mixByte, mixSquareByte, invMixByte, xtime_xor]
  simp only [BitVec.xor_comm, byte_xor_left_comm, BitVec.xor_assoc, xor_cancel_left]

/-- The two bytes keep their sum, so 4 times the same sum is added twice, which is nothing. -/
theorem mixSquareByte_mixSquareByte (a c : Byte) : mixSquareByte (mixSquareByte a c) (mixSquareByte c a) = a := by
  have hsum : mixSquareByte a c ^^^ mixSquareByte c a = a ^^^ c := by
    rw [mixSquareByte, mixSquareByte, BitVec.xor_comm c a]
    calc _ = xtime (xtime (a ^^^ c)) ^^^ (xtime (xtime (a ^^^ c)) ^^^ (a ^^^ c)) := by ac_rfl
      _ = a ^^^ c := xor_cancel_left _ _
  rw [mixSquareByte, hsum, mixSquareByte, xor_cancel_left]

theorem mixColumn_mixColumn (s : Column) : mixColumn (mixColumn s) = mixColumnSquare s := by
  simp only [mixColumn_eq, mixByte_mixByte, mixColumnSquare]

theorem mixColumn_mixColumnSquare (s : Column) : mixColumn (mixColumnSquare s) = invMixColumn s := by
  simp only [mixColumn_eq, mixColumnSquare, mixByte_mixSquareByte, invMixColumn_eq]

theorem mixColumnSquare_mixColumnSquare (s : Column) : mixColumnSquare (mixColumnSquare s) = s := by
  simp only [mixColumnSquare, mixSquareByte_mixSquareByte]

@[simp] theorem invMixColumn_mixColumn (s : Column) : invMixColumn (mixColumn s) = s := by
  calc invMixColumn (mixColumn s) = mixColumn (mixColumn (mixColumn (mixColumn s))) := by
        rw [← mixColumn_mixColumnSquare, ← mixColumn_mixColumn]
    _ = s := by rw [mixColumn_mixColumn, mixColumn_mixColumn, mixColumnSquare_mixColumnSquare]

@[simp] theorem mixColumn_invMixColumn (s : Column) : mixColumn (invMixColumn s) = s := by
  rw [← mixColumn_mixColumnSquare, mixColumn_mixColumn, mixColumnSquare_mixColumnSquare]

@[simp] theorem invMixColumns_mixColumns (s : Block) : invMixColumns (mixColumns s) = s :=
  quad_ext_get fun j => by rw [invMixColumns, mixColumns, quad_get_map, quad_get_map, invMixColumn_mixColumn]

@[simp] theorem mixColumns_invMixColumns (s : Block) : mixColumns (invMixColumns s) = s :=
  quad_ext_get fun j => by rw [mixColumns, invMixColumns, quad_get_map, quad_get_map, mixColumn_invMixColumn]

/-- Settles O48: column by column, MixColumns having order 4. -/
theorem invMixColumnsUndoesMixColumns : Obligations.InvMixColumnsUndoesMixColumns := fun s =>
  ⟨invMixColumns_mixColumns s, mixColumns_invMixColumns s⟩

/-! SubBytes and AddRoundKey. -/

@[simp] theorem invSubBytes_subBytes (s : Block) : invSubBytes (subBytes s) = s :=
  block_ext_entry fun r c => by rw [invSubBytes, subBytes, entry_mapBytes, entry_mapBytes, invSboxByte_sboxByte]

@[simp] theorem subBytes_invSubBytes (s : Block) : subBytes (invSubBytes s) = s :=
  block_ext_entry fun r c => by rw [subBytes, invSubBytes, entry_mapBytes, entry_mapBytes, sboxByte_invSboxByte]

theorem quad_get_zipWith {α β γ : Type} (f : α → β → γ) (p : Quad α) (q : Quad β) (j : Fin 4) :
    (p.zipWith f q).get j = f (p.get j) (q.get j) := by
  fin_cases j <;> rfl

@[simp] theorem entry_addRoundKey (s k : Block) (r c : Fin 4) : (addRoundKey s k).entry r c = s.entry r c ^^^ k.entry r c := by
  rw [addRoundKey, Block.entry, quad_get_zipWith, quad_get_zipWith, Block.entry, Block.entry]

/-- Adding a round key twice is adding nothing (R171). -/
@[simp] theorem addRoundKey_addRoundKey (s k : Block) : addRoundKey (addRoundKey s k) k = s :=
  block_ext_entry fun r c => by
    rw [entry_addRoundKey, entry_addRoundKey, BitVec.xor_assoc, BitVec.xor_self, BitVec.xor_zero]

end Sys2Proof.Machine
end

/-! ### Family 42_block_cipher, the two ciphers

A round of either cipher begins with its substitution, the S-box and row steps, which need no key. Seen through the substitution a
round of one cipher is undone by the round of the other with the same key (`decRound_encSubstitute_encRound` and its mirror image).
One induction over the list of round keys then serves both round trips. -/
section

namespace Sys2Proof.Machine

/-- The steps of an encryption round that need no key and that the last round has too (R178). -/
def encSubstitute (s : Block) : Block := shiftRows (subBytes s)

/-- The steps of a decryption round that need no key and that the last round has too (R179). -/
def decSubstitute (s : Block) : Block := invSubBytes (invShiftRows s)

@[simp] theorem decSubstitute_encSubstitute (s : Block) : decSubstitute (encSubstitute s) = s := by
  rw [decSubstitute, encSubstitute, invShiftRows_shiftRows, invSubBytes_subBytes]

@[simp] theorem encSubstitute_decSubstitute (s : Block) : encSubstitute (decSubstitute s) = s := by
  rw [encSubstitute, decSubstitute, subBytes_invSubBytes, shiftRows_invShiftRows]

theorem encRound_eq (s k : Block) : encRound s k = addRoundKey (mixColumns (encSubstitute s)) k := rfl

theorem decRound_eq (s k : Block) : decRound s k = invMixColumns (addRoundKey (decSubstitute s) k) := rfl

theorem encFinalRound_eq (s k : Block) : encFinalRound s k = addRoundKey (encSubstitute s) k := rfl

theorem decFinalRound_eq (s k : Block) : decFinalRound s k = addRoundKey (decSubstitute s) k := rfl

theorem decRound_encSubstitute_encRound (s k : Block) : decRound (encSubstitute (encRound s k)) k = encSubstitute s := by
  rw [decRound_eq, decSubstitute_encSubstitute, encRound_eq, addRoundKey_addRoundKey, invMixColumns_mixColumns]

theorem encRound_decSubstitute_decRound (s k : Block) : encRound (decSubstitute (decRound s k)) k = decSubstitute s := by
  rw [encRound_eq, encSubstitute_decSubstitute, decRound_eq, mixColumns_invMixColumns, addRoundKey_addRoundKey]

/-- When a round `undo` undoes a round `round` with the same key, seen through `through`, so do many, their keys in reverse. -/
theorem foldl_reverse_undoes {round undo : Block → Block → Block} {through : Block → Block}
    (h : ∀ s k, undo (through (round s k)) k = through s) (ks : List Block) (s : Block) :
    ks.reverse.foldl undo (through (ks.foldl round s)) = through s := by
  induction ks generalizing s with
  | nil => rfl
  | cons k ks ih => rw [List.reverse_cons, List.foldl_append, List.foldl_cons (l := ks), ih, List.foldl_cons, List.foldl_nil, h]

/-- The round keys 1 to 9, those of the rounds with MixColumns. -/
def middleKeys (rk : Schedule) : List Block := [rk.k1, rk.k2, rk.k3, rk.k4, rk.k5, rk.k6, rk.k7, rk.k8, rk.k9]

theorem cipher_eq (x : Block) (rk : Schedule) :
    cipher x rk = encFinalRound ((middleKeys rk).foldl encRound (addRoundKey x rk.k0)) rk.k10 := rfl

theorem invCipher_eq (x : Block) (rk : Schedule) :
    invCipher x rk = decFinalRound ((middleKeys rk).reverse.foldl decRound (addRoundKey x rk.k10)) rk.k0 := rfl

theorem invCipher_cipher (x : Block) (rk : Schedule) : invCipher (cipher x rk) rk = x := by
  rw [invCipher_eq, cipher_eq, encFinalRound_eq, addRoundKey_addRoundKey,
    foldl_reverse_undoes decRound_encSubstitute_encRound, decFinalRound_eq, decSubstitute_encSubstitute, addRoundKey_addRoundKey]

theorem cipher_invCipher (x : Block) (rk : Schedule) : cipher (invCipher x rk) rk = x := by
  have hrounds := foldl_reverse_undoes encRound_decSubstitute_decRound (middleKeys rk).reverse (addRoundKey x rk.k10)
  rw [List.reverse_reverse] at hrounds
  rw [cipher_eq, invCipher_eq, decFinalRound_eq, addRoundKey_addRoundKey, hrounds, encFinalRound_eq,
    encSubstitute_decSubstitute, addRoundKey_addRoundKey]

/-- Settles O49: each round of one cipher undoes the round of the other with the same key, by induction over the keys. -/
theorem invCipherUndoesCipher : Obligations.InvCipherUndoesCipher := fun x rk =>
  ⟨invCipher_cipher x rk, cipher_invCipher x rk⟩

end Sys2Proof.Machine
end

/-! ### Family 43_commands, a pending command

Nothing but its completion or a reset ends a pending command (R247): every other step counts its waiting down and keeps the core's
own state (`step_pending`), so the completion comes after as many steps as are left to wait, and from the latched operands. -/
section

namespace Sys2Proof.Machine

/-- Every transaction answers a next state (R74, R78). -/
theorem exists_access (x : Txn) (s : State) : ∃ t, access x s = .next t := by
  obtain ⟨hmalformed, hwell⟩ := malformedTransactionIsRefusedWithBus x s
  by_cases hx : x.WellFormed
  · exact (hwell hx).imp fun _ h => h.1
  · exact ⟨_, hmalformed hx⟩

/-- The outside's step answers a next state. -/
theorem exists_hostStep (s : State) : ∃ t, hostStep s = .next t := by
  unfold hostStep
  split
  · exact ⟨_, rfl⟩
  · exact ⟨_, rfl⟩
  · exact exists_access _ _
  · exact exists_access _ _
  · exact ⟨_, rfl⟩

/-- Every step answers a next state (R300). -/
theorem exists_step (s : State) : ∃ t, step s = .next t := by
  unfold step agentStep
  split
  · exact ⟨_, rfl⟩
  · exact exists_hostStep s

/-- A reset is next exactly when it is the first of the coming events. -/
theorem resetNext_iff (s : State) : resetNext s = true ↔ ∃ rest, s.script = .reset :: rest := by
  unfold resetNext
  split <;> simp_all

/-- While a command is pending a register write draws no latency, and no write touches the events to come. -/
theorem writeReg_wait_script {r : Reg} {v : Word} {s t : State} (hp : s.pend ≠ none) (h : writeReg r v s = .next t) :
    t.wait = s.wait ∧ t.script = s.script := by
  cases r with
  | cmd =>
    rcases writeCmd_cases h with ⟨c, rfl⟩ | ⟨i, -, hr, -⟩
    · exact ⟨raiseError_wait c s, raiseError_script c s⟩
    · rw [firstRefusal_busy hp] at hr; cases hr
  | id | ctrl | status | key | din | dout | blkcnt | blkidx | gfb => cases h; exact ⟨rfl, rfl⟩

/-- What a transaction does while a command is pending: it starts none, so it keeps the core's state and the waiting (R247). -/
theorem access_pending {x : Txn} {s t : State} (hp : s.pend ≠ none) (h : access x s = .next t) :
    CoreKept s t ∧ t.wait = s.wait ∧ t.script = s.script := by
  have hkept : CoreKept s t := by
    rcases access_kinds h with ⟨i, hi, -⟩ | ⟨hk, -⟩
    · rw [firstRefusal_busy hp] at hi; cases hi
    · exact hk
  refine ⟨hkept, ?_⟩
  rcases access_cases h with ⟨a, rfl⟩ | ⟨off, r, -, -, rfl⟩ | ⟨off, v, r, -, -, hw⟩
  · exact ⟨raiseError_wait .bus s, raiseError_script .bus s⟩
  · exact ⟨rfl, rfl⟩
  · exact writeReg_wait_script (s := answer (.writeDone false) s) hp hw

/-- A step while a command waits: the core's state is kept, the waiting is one less, and the outside has taken one event, or
polls on (R247). -/
theorem step_pending {s t : State} (hp : s.pend ≠ none) (hd : completionDue s = false) (hr : resetNext s = false)
    (h : step s = .next t) :
    CoreKept s t ∧ t.wait = s.wait - 1 ∧ (t.script = s.script ∨ t.script = s.script.tail) := by
  rcases step_cases h with ⟨hdue, -⟩ | ⟨rest, hs, -⟩ | ⟨-, hs, rfl⟩ | ⟨rest, -, hs, rfl⟩ | ⟨rest, -, hs, rfl⟩ |
    ⟨x, rest, -, hs, ha⟩
  · rw [hd] at hdue; cases hdue
  · rw [(resetNext_iff s).2 ⟨rest, hs⟩] at hr; cases hr
  · exact ⟨coreKept_tick s, rfl, .inl rfl⟩
  · exact ⟨coreKept_tick_takeEvent rest s, rfl, .inr (by rw [hs]; rfl)⟩
  · cases busy s with
    | true => exact ⟨(coreKept_tick s).trans (coreKept_answer _ _), rfl, .inl rfl⟩
    | false => exact ⟨(coreKept_tick_takeEvent rest s).trans (coreKept_answer _ _), rfl, .inr (by rw [hs]; rfl)⟩
  · obtain ⟨hk, hwait, hscript⟩ := access_pending (s := tick (takeEvent rest s)) hp ha
    exact ⟨(coreKept_tick_takeEvent rest s).trans hk, hwait, .inr (by rw [hs]; exact hscript)⟩

/-- Settles O11: a step of a pending command is its completion, a reset, or one that keeps it. -/
theorem pendingCommandRefusesEveryOtherAndEndsOnlyByCompletionOrReset :
    Obligations.PendingCommandRefusesEveryOtherAndEndsOnlyByCompletionOrReset := by
  intro s p hp
  have hpend : s.pend ≠ none := by simp [hp]
  refine ⟨fun i => exec_refused (firstRefusal_busy hpend), fun t h => ?_⟩
  cases hr : resetNext s with
  | true => exact .inr (.inr ((resetNext_iff s).1 hr))
  | false =>
    cases hd : completionDue s with
    | true =>
      rw [step_completion hd hr] at h
      cases h
      exact .inr (.inl ⟨((completionDue_iff s).1 hd).2, rfl, rfl⟩)
    | false =>
      obtain ⟨hk, -⟩ := step_pending hpend hd hr h
      exact .inl (hk.pend.trans hp)

/-- DOUT after a completion (R222, R223, R226, R228 to R232). -/
theorem ownCompletion_dout (i : Instr) (p : Pending) (s : State) :
    (ownCompletion i p s).dout =
      match i with
      | .encBlock => wordsOf (cipher p.ldin s.rk)
      | .decBlock => wordsOf (invCipher p.ldin s.rk)
      | .msgNext => wordsOf (msgNextOutput p s)
      | .sbox => wordsOf (p.ldin.mapBytes sboxByte)
      | .invSbox => wordsOf (p.ldin.mapBytes invSboxByte)
      | .gfInv => wordsOf (p.ldin.mapBytes ginv)
      | .gfMul => wordsOf (p.ldin.mapBytes fun x => gmul x p.lgfb)
      | .zeroize => Quad.const 0x00000000#32
      | .nop | .expandKey | .msgStartEnc | .msgStartDec | .msgAbort => s.dout := by
  cases i with
  | msgNext => simp only [ownCompletion, completeMsgNext]; split <;> rfl
  | msgAbort => simp only [ownCompletion, completeMsgAbort]; split <;> rfl
  | nop | expandKey | encBlock | decBlock | msgStartEnc | msgStartDec | sbox | invSbox | gfInv | gfMul | zeroize => rfl

/-- DOUT_VALID after a completion: a stored block sets it; ZEROIZE stores none (R30). -/
theorem ownCompletion_doutValid (i : Instr) (p : Pending) (s : State) :
    (ownCompletion i p s).doutValid = if producesDout i = true ∧ i ≠ .zeroize then true else s.doutValid := by
  cases i with
  | msgNext => simp only [ownCompletion, completeMsgNext]; split <;> rfl
  | msgAbort => simp only [ownCompletion, completeMsgAbort]; split <;> rfl
  | nop | expandKey | encBlock | decBlock | msgStartEnc | msgStartDec | sbox | invSbox | gfInv | gfMul | zeroize => rfl

/-- `t` is a state after the completion of `p` taken from `s`, as far as the completion's outputs go (R212, R348). -/
structure CompletedFrom (p : Pending) (s t : State) : Prop where
  pend : t.pend = none
  done : t.done = true
  dout : t.dout = (ownCompletion p.op p s).dout
  doutValid : t.doutValid = (ownCompletion p.op p s).doutValid
  rk : t.rk = (ownCompletion p.op p s).rk
  fsm : t.fsm = (ownCompletion p.op p s).fsm
  blkidx : t.blkidx = (ownCompletion p.op p s).blkidx
  msgCnt : t.msgCnt = (ownCompletion p.op p s).msgCnt

theorem completedFrom_complete {s : State} {p : Pending} (h : s.pend = some p) : CompletedFrom p s (complete s) := by
  rw [complete_pending h]
  exact ⟨rfl, rfl, rfl, rfl, rfl, rfl, rfl, rfl⟩

/-- A completion's outputs read, beside the latched operands, only what the core alone writes: what a step has kept of it, the
outputs do not tell apart (R348). -/
theorem CompletedFrom.of_coreKept {p : Pending} {s s' t : State} (hk : CoreKept s s') (h : CompletedFrom p s' t) :
    CompletedFrom p s t where
  pend := h.pend
  done := h.done
  dout := by rw [h.dout, ownCompletion_dout, ownCompletion_dout, msgNextOutput, msgNextOutput, hk.dout, hk.rk, hk.fsm]
  doutValid := by rw [h.doutValid, ownCompletion_doutValid, ownCompletion_doutValid, hk.doutValid]
  rk := by rw [h.rk, ownCompletion_rk, ownCompletion_rk, hk.rk, hk.fsm, hk.blkidx, hk.msgCnt]
  fsm := by rw [h.fsm, ownCompletion_fsm, ownCompletion_fsm, hk.fsm, hk.blkidx, hk.msgCnt]
  blkidx := by rw [h.blkidx, ownCompletion_blkidx, ownCompletion_blkidx, hk.blkidx]
  msgCnt := by rw [h.msgCnt, ownCompletion_msgCnt, ownCompletion_msgCnt, hk.msgCnt]

/-- No reset is among the next `n` events. -/
def NoResetIn (n : Nat) (s : State) : Prop := ∀ e ∈ s.script.take n, e ≠ .reset

theorem NoResetIn.resetNext_eq_false {n : Nat} {s : State} (h : NoResetIn (n + 1) s) : resetNext s = false := by
  cases hr : resetNext s with
  | false => rfl
  | true =>
    obtain ⟨rest, hs⟩ := (resetNext_iff s).1 hr
    exact absurd rfl (h .reset (by simp [hs]))

/-- A step takes at most one event, so one fewer is known to be no reset. -/
theorem NoResetIn.of_script {n : Nat} {s t : State} (h : NoResetIn (n + 1) s)
    (hs : t.script = s.script ∨ t.script = s.script.tail) : NoResetIn n t := by
  intro e he
  rcases hs with hs | hs <;> rw [hs] at he
  · exact h e (List.take_subset_take_left _ (Nat.le_succ n) he)
  · rw [← List.drop_one, List.take_drop] at he
    exact h e (Nat.add_comm 1 n ▸ List.mem_of_mem_drop he)

/-- A pending command waits its steps, then completes from the operands and the core's state it has now (R246, R348). -/
theorem run_pending {s : State} {p : Pending} (hp : s.pend = some p) (hr : NoResetIn (s.wait + 1) s) :
    ∃ t, Host.Core.run Sys2Proof.core (s.wait + 1) s = .next t ∧ CompletedFrom p s t := by
  generalize hw : s.wait = w at hr
  induction w generalizing s with
  | zero =>
    have hdue : completionDue s = true := (completionDue_iff s).2 ⟨by simp [hp], hw⟩
    exact ⟨_, run_succ 0 (step_completion hdue hr.resetNext_eq_false), completedFrom_complete hp⟩
  | succ w ih =>
    obtain ⟨s', hstep⟩ := exists_step s
    obtain ⟨hk, hwait, hscript⟩ :=
      step_pending (by simp [hp]) (by simp [completionDue, hw]) hr.resetNext_eq_false hstep
    obtain ⟨t, hrun, hdone⟩ := ih (hk.pend.trans hp) (by rw [hwait, hw, Nat.add_sub_cancel]) (hr.of_script hscript)
    exact ⟨t, (run_succ (w + 1) hstep).trans hrun, hdone.of_coreKept hk⟩

/-- Settles O37, by induction on the steps left to wait. -/
theorem pendingCommandCompletesFromItsLatchedOperands : Obligations.PendingCommandCompletesFromItsLatchedOperands := by
  intro s p hp hr
  obtain ⟨t, hrun, h⟩ := run_pending hp hr
  exact ⟨t, hrun, h.pend, h.done, h.dout, h.doutValid, h.rk, h.fsm, h.blkidx, h.msgCnt⟩

end Sys2Proof.Machine
end

/-! ### Family 43_commands, secrets

A step of a state and a step of the state with its secrets blotted out come to the same but for secrets, unless the step is the
completion of a cipher. Two states equal but for secrets blot out to one state, so their steps agree. -/
section

namespace Sys2Proof.Machine

section

variable (s : State)

@[simp] theorem busy_withoutSecrets : busy (withoutSecrets s) = busy s := by
  simp [busy, withoutSecrets]

@[simp] theorem statusWord_withoutSecrets : statusWord (withoutSecrets s) = statusWord s := by
  unfold statusWord
  rw [busy_withoutSecrets]
  rfl

@[simp] theorem completionDue_withoutSecrets : completionDue (withoutSecrets s) = completionDue s := by
  simp [completionDue, withoutSecrets]

@[simp] theorem resetNext_withoutSecrets : resetNext (withoutSecrets s) = resetNext s := rfl

@[simp] theorem withoutSecrets_withoutSecrets : withoutSecrets (withoutSecrets s) = withoutSecrets s := by
  cases hp : s.pend <;> simp [withoutSecrets, hp]

/-- No check of acceptance reads a secret: KEY_WR says which key words are written, not what they are (R211). -/
@[simp] theorem firstRefusal_withoutSecrets (i : Instr) : firstRefusal i (withoutSecrets s) = firstRefusal i s := by
  unfold firstRefusal
  rw [busy_withoutSecrets]
  rfl

/-- No register reads as a secret (R33, R77). -/
@[simp] theorem readReg_withoutSecrets (r : Reg) : readReg r (withoutSecrets s) = readReg r s := by
  cases r with
  | status => exact statusWord_withoutSecrets s
  | id | ctrl | cmd | key | din | dout | blkcnt | blkidx | gfb => rfl

@[simp] theorem raiseError_withoutSecrets (c : ErrCode) :
    raiseError c (withoutSecrets s) = withoutSecrets (raiseError c s) := by
  cases he : s.err with
  | true => rw [raiseError_again c s he, raiseError_again c _ (show (withoutSecrets s).err = true from he)]
  | false => rw [raiseError_first c s he, raiseError_first c _ (show (withoutSecrets s).err = false from he)]; rfl

end

/-- What an outcome shows of its state without secrets. -/
def outcomeWithoutSecrets : Host.Outcome State Fault Refusal → Host.Outcome State Fault Refusal
  | .next s => .next (withoutSecrets s)
  | .fault r => .fault r
  | .refused r => .refused r

@[simp] theorem outcomeWithoutSecrets_next (s : State) : outcomeWithoutSecrets (.next s) = .next (withoutSecrets s) := rfl

/-- `f` tells no secret of `s`: with the secrets blotted out beforehand it comes to the same but for secrets. -/
def TellsNoSecret (f : State → Host.Outcome State Fault Refusal) (s : State) : Prop :=
  outcomeWithoutSecrets (f (withoutSecrets s)) = outcomeWithoutSecrets (f s)

/-- An acceptance latches the key, which stays a secret, and reads no other (R41). -/
theorem withoutSecrets_acceptance (i : Instr) (s : State) :
    withoutSecrets (ownAcceptance i (acceptCommon i (withoutSecrets s))) =
      withoutSecrets (ownAcceptance i (acceptCommon i s)) := by
  cases i <;> rfl

theorem exec_tellsNoSecret (i : Instr) (s : State) : TellsNoSecret (exec i) s := by
  unfold TellsNoSecret
  have hr := firstRefusal_withoutSecrets s i
  cases hs : firstRefusal i s with
  | some c => simp [exec_refused hs, exec_refused (hr.trans hs)]
  | none => simp [exec_accepted hs, exec_accepted (hr.trans hs), withoutSecrets_acceptance]

theorem writeCmd_tellsNoSecret (v : Word) (s : State) : TellsNoSecret (writeCmd v) s := by
  unfold TellsNoSecret writeCmd
  cases decode v with
  | error e => simp
  | ok i => exact exec_tellsNoSecret i s

/-- A register write reads no secret: a key word is written over, not read (R33, R78). -/
theorem writeReg_tellsNoSecret (r : Reg) (v : Word) (s : State) : TellsNoSecret (writeReg r v) s := by
  cases r with
  | cmd => exact writeCmd_tellsNoSecret v s
  | id | ctrl | status | key | din | dout | blkcnt | blkidx | gfb =>
    simp [TellsNoSecret, writeReg, withoutSecrets, clearStatus, Function.comp_def]

theorem answer_withoutSecrets (a : Response) (s : State) :
    answer a (withoutSecrets s) = withoutSecrets (answer a s) := rfl

theorem refuseAccess_withoutSecrets (a : Response) (s : State) :
    refuseAccess a (withoutSecrets s) = withoutSecrets (refuseAccess a s) := by
  rw [refuseAccess, raiseError_withoutSecrets, answer_withoutSecrets, refuseAccess]

/-- No answer to a transaction and no effect of one tells a secret (R33, R244). -/
theorem access_tellsNoSecret (x : Txn) (s : State) : TellsNoSecret (access x) s := by
  unfold TellsNoSecret
  cases x with
  | read off =>
    by_cases hoff : legalOffset off
    · obtain ⟨r, rfl⟩ := exists_offsetOf_of_legal hoff
      simp [access_read_reg, answer_withoutSecrets]
    · simp [access_read_illegal hoff, refuseAccess_withoutSecrets]
  | write off v strb =>
    by_cases hwell : legalOffset off ∧ strb = 0xF#4
    · obtain ⟨hoff, rfl⟩ := hwell
      obtain ⟨r, rfl⟩ := exists_offsetOf_of_legal hoff
      rw [access_write_reg, access_write_reg]
      exact writeReg_tellsNoSecret r v (answer (.writeDone false) s)
    · simp [access_write_malformed hwell, refuseAccess_withoutSecrets]

theorem tick_withoutSecrets (s : State) : tick (withoutSecrets s) = withoutSecrets (tick s) := rfl

theorem takeEvent_withoutSecrets (rest : List Event) (s : State) :
    takeEvent rest (withoutSecrets s) = withoutSecrets (takeEvent rest s) := rfl

/-- The outside's step tells no secret, whatever its next event (R72, R107, R340). -/
theorem hostStep_tellsNoSecret (s : State) : TellsNoSecret hostStep s := by
  unfold TellsNoSecret hostStep
  rw [busy_withoutSecrets, show (withoutSecrets s).script = s.script from rfl]
  cases s.script with
  | nil => simp [tick_withoutSecrets]
  | cons e rest =>
    cases e with
    | idle => simp [tick_withoutSecrets, takeEvent_withoutSecrets]
    | access x => exact access_tellsNoSecret x (tick (takeEvent rest s))
    | pollBusy =>
      cases busy s with
      | true => exact access_tellsNoSecret _ (tick s)
      | false => exact access_tellsNoSecret _ (tick (takeEvent rest s))
    | reset => rfl

/-- A completion's own effects, blotted: but for the ciphers' output they read no secret, and the schedule they load or drop is
one (R40, R221 to R232). -/
theorem withoutSecrets_ownCompletion {i : Instr} (hi : ¬ (i = .encBlock ∨ i = .decBlock ∨ i = .msgNext)) (p : Pending)
    (s : State) :
    withoutSecrets (finish (ownCompletion i { p with lkey := Block.zero } (withoutSecrets s))) =
      withoutSecrets (finish (ownCompletion i p s)) := by
  cases i with
  | encBlock | decBlock | msgNext => simp at hi
  | msgAbort =>
    simp only [ownCompletion, completeMsgAbort, show (withoutSecrets s).fsm = s.fsm from rfl]
    split <;> rfl
  | nop | expandKey | msgStartEnc | msgStartDec | sbox | invSbox | gfInv | gfMul | zeroize => rfl

/-- The completion of a command that is no cipher tells no secret (R244). -/
theorem coreStep_tellsNoSecret {s : State} {p : Pending} (hp : s.pend = some p)
    (hi : ¬ (p.op = .encBlock ∨ p.op = .decBlock ∨ p.op = .msgNext)) : TellsNoSecret coreStep s := by
  have hp' : (withoutSecrets s).pend = some { p with lkey := Block.zero } := by simp [withoutSecrets, hp]
  simp only [TellsNoSecret, coreStep, outcomeWithoutSecrets_next, complete_pending hp, complete_pending hp',
    withoutSecrets_ownCompletion hi]

/-- A step tells no secret, unless it puts a cipher output into DOUT (R244). -/
theorem step_tellsNoSecret {s : State} (h : ¬ cipherDue s) : TellsNoSecret step s := by
  unfold TellsNoSecret step agentStep
  rw [completionDue_withoutSecrets, resetNext_withoutSecrets]
  split
  next hcore =>
    have hd : completionDue s = true := (Bool.and_eq_true_iff.1 hcore).1
    obtain ⟨p, hp⟩ := Option.ne_none_iff_exists'.1 ((completionDue_iff s).1 hd).1
    exact coreStep_tellsNoSecret hp fun hi => h ⟨hd, p, hp, hi⟩
  next => exact hostStep_tellsNoSecret s

/-- Whether a cipher's completion is due is no secret. -/
theorem cipherDue_withoutSecrets (s : State) : cipherDue (withoutSecrets s) ↔ cipherDue s := by
  unfold cipherDue
  rw [completionDue_withoutSecrets]
  cases hp : s.pend <;> simp [withoutSecrets, hp]

theorem SameButSecrets.cipherDue_iff {s t : State} (h : SameButSecrets s t) : cipherDue s ↔ cipherDue t := by
  rw [← cipherDue_withoutSecrets s, h, cipherDue_withoutSecrets]

/-- States equal but for secrets step to states equal but for secrets, where the step of each tells none. -/
theorem SameButSecrets.of_step {s t s' t' : State} (h : SameButSecrets s t) (hs : TellsNoSecret step s)
    (ht : TellsNoSecret step t) (hs' : step s = .next s') (ht' : step t = .next t') : SameButSecrets s' t' := by
  have heq : outcomeWithoutSecrets (step s) = outcomeWithoutSecrets (step t) := by rw [← hs, h, ht]
  rw [hs', ht'] at heq
  exact Host.Outcome.next.inj heq

/-- What the host can see is the same in states equal but for secrets: the answer, STATUS and `irq` (R33, R43). -/
theorem SameButSecrets.visible {s t : State} (h : SameButSecrets s t) :
    s.resp = t.resp ∧ statusWord s = statusWord t ∧ irq s = irq t := by
  have hresp : (withoutSecrets s).resp = (withoutSecrets t).resp := by rw [h]
  have hstatus : statusWord (withoutSecrets s) = statusWord (withoutSecrets t) := by rw [h]
  have hirq : irq (withoutSecrets s) = irq (withoutSecrets t) := by rw [h]
  rw [statusWord_withoutSecrets, statusWord_withoutSecrets] at hstatus
  exact ⟨hresp, hstatus, hirq⟩

/-- Settles O38: each step is that of the blotted state but for secrets, and the two blotted states are one. -/
theorem noTransactionTellsTheKey : Obligations.NoTransactionTellsTheKey := by
  intro s t s' t' h hcipher hs ht
  have hnext : SameButSecrets s' t' :=
    h.of_step (step_tellsNoSecret hcipher) (step_tellsNoSecret (mt h.cipherDue_iff.2 hcipher)) hs ht
  exact ⟨hnext, hnext.visible⟩

end Sys2Proof.Machine
end

/-! ### Family 43_commands, acceptance and refusal

A command is refused with the first check of R211 that fails (`exec_busy`, `exec_stateError`, `exec_keyLength`,
`exec_blockLength`, `exec_msgLength`) and accepted when none does (`exec_legal`). -/
section

namespace Sys2Proof.Machine

section

variable {i : Instr} {s : State}

/-- While a command is pending every other is refused (R247). -/
theorem exec_busy (hp : s.pend ≠ none) : exec i s = .next (raiseError .busy s) :=
  exec_refused (firstRefusal_busy hp)

/-- A state error is raised whatever the masks and BLKCNT are (R213). -/
theorem exec_stateError {c : ErrCode} (hp : s.pend = none) (hf : stateError i s.fsm = some c) :
    exec i s = .next (raiseError c s) :=
  exec_refused (by simp [firstRefusal, busy, hp, hf])

/-- A command that expands a key wants all of it (R214). -/
theorem exec_keyLength (hi : needsKey i = true) (hp : s.pend = none) (hf : stateError i s.fsm = none)
    (hk : s.keyWr ≠ 0b1111#4) : exec i s = .next (raiseError .keyLength s) :=
  exec_refused (by simp [firstRefusal, busy, allWritten, hp, hf, hi, hk])

/-- No command reads both a key and a block (R211). -/
theorem needsKey_of_needsDin (hi : needsDin i = true) : needsKey i = false := by
  revert hi
  cases i <;> decide

/-- A command that reads a block wants all of it (R214). -/
theorem exec_blockLength (hi : needsDin i = true) (hp : s.pend = none) (hf : stateError i s.fsm = none)
    (hd : s.dinWr ≠ 0b1111#4) : exec i s = .next (raiseError .blockLength s) :=
  exec_refused (by simp [firstRefusal, busy, allWritten, hp, hf, hi, hd, needsKey_of_needsDin hi])

/-- A message start expands a key and reads no block (R211). -/
theorem needs_of_isMsgStart (hi : isMsgStart i = true) : needsKey i = true ∧ needsDin i = false := by
  rcases (isMsgStart_iff i).1 hi with rfl | rfl <;> exact ⟨rfl, rfl⟩

/-- A message start, its key whole, wants a block to come (R214). -/
theorem exec_msgLength (hi : isMsgStart i = true) (hp : s.pend = none) (hf : stateError i s.fsm = none)
    (hk : s.keyWr = 0b1111#4) (hb : s.blkcnt = 0#16) : exec i s = .next (raiseError .msgLength s) := by
  obtain ⟨-, hd⟩ := needs_of_isMsgStart hi
  exact exec_refused (by simp [firstRefusal, busy, allWritten, hp, hf, hi, hk, hd, hb])

/-- A command whose checks are all met is accepted (R211). -/
theorem exec_legal (hp : s.pend = none) (hf : stateError i s.fsm = none) (hk : needsKey i = true → s.keyWr = 0b1111#4)
    (hd : needsDin i = true → s.dinWr = 0b1111#4) (hb : isMsgStart i = true → s.blkcnt ≠ 0#16) :
    exec i s = .next (ownAcceptance i (acceptCommon i s)) :=
  exec_accepted ((firstRefusal_none_iff i s).2 ⟨hp, hf, hk, hd, hb⟩)

end

/-! The table of R213: which commands each sequencer state admits. -/

/-- The commands that a message in progress refuses (R213). -/
abbrev RefusedInMessage (i : Instr) : Prop :=
  i = .expandKey ∨ i = .encBlock ∨ i = .decBlock ∨ i = .msgStartEnc ∨ i = .msgStartDec ∨ i = .sbox ∨ i = .invSbox ∨
    i = .gfInv ∨ i = .gfMul

/-- The block commands, which IDLE refuses (R213). -/
abbrev IsBlockCommand (i : Instr) : Prop := i = .encBlock ∨ i = .decBlock

/-- The table of R213 as one equation. -/
theorem stateError_eq (i : Instr) (f : Fsm) :
    stateError i f =
      if f = .idle ∧ IsBlockCommand i then some .noKey
      else if ¬ (f = .msgEnc ∨ f = .msgDec) ∧ i = .msgNext then some .sequence
      else if (f = .msgEnc ∨ f = .msgDec) ∧ RefusedInMessage i then some .sequence
      else none := by
  cases f <;> cases i <;> rfl

section

variable {i : Instr} {f : Fsm}

theorem stateError_idle (hf : f = .idle) (hi : IsBlockCommand i) : stateError i f = some .noKey := by
  rw [stateError_eq, if_pos ⟨hf, hi⟩]

theorem stateError_msgNext (hf : ¬ (f = .msgEnc ∨ f = .msgDec)) (hi : i = .msgNext) :
    stateError i f = some .sequence := by
  rw [stateError_eq, if_neg (by simp [hi]), if_pos ⟨hf, hi⟩]

theorem stateError_inMessage (hf : f = .msgEnc ∨ f = .msgDec) (hi : RefusedInMessage i) :
    stateError i f = some .sequence := by
  have hidle : f ≠ .idle := by rcases hf with rfl | rfl <;> decide
  rw [stateError_eq, if_neg fun h => hidle h.1, if_neg fun h => h.1 hf, if_pos ⟨hf, hi⟩]

/-- Every other pair is legal. -/
theorem stateError_legal (hidle : ¬ (f = .idle ∧ IsBlockCommand i)) (hnext : ¬ (¬ (f = .msgEnc ∨ f = .msgDec) ∧ i = .msgNext))
    (hmsg : ¬ ((f = .msgEnc ∨ f = .msgDec) ∧ RefusedInMessage i)) : stateError i f = none := by
  rw [stateError_eq, if_neg hidle, if_neg hnext, if_neg hmsg]

end

/-- Settles O12: the four rows of the table. -/
theorem sequencerTableDecidesLegality : Obligations.SequencerTableDecidesLegality := by
  intro i s hp
  refine ⟨fun hf hi => exec_stateError hp (stateError_idle hf hi),
    fun hf hi => exec_stateError hp (stateError_msgNext hf hi),
    fun hf hi => exec_stateError hp (stateError_inMessage hf hi), fun hidle hnext hmsg hk hd hb => ?_⟩
  have hexec := exec_legal hp (stateError_legal hidle hnext hmsg) (fun _ => hk) (fun _ => hd) (fun _ => hb)
  exact ⟨_, latch i s, hexec, ownAcceptance_pend i _, rfl⟩

section

variable {i : Instr} {f : Fsm}

/-- The commands on the bytes of a block that need no key (R228 to R231). -/
abbrev IsByteCommand (i : Instr) : Prop := i = .sbox ∨ i = .invSbox ∨ i = .gfInv ∨ i = .gfMul

/-- A sequencer state lies outside a message or in one, not both (R36). -/
theorem outside_or_inMessage (f : Fsm) : (f = .idle ∨ f = .ready) ∨ f = .msgEnc ∨ f = .msgDec := by
  cases f <;> decide

theorem not_inMessage_of_outside (hf : f = .idle ∨ f = .ready) : ¬ (f = .msgEnc ∨ f = .msgDec) := by
  rcases hf with rfl | rfl <;> decide

/-- Outside a message every command is legal but the block commands and MSG_NEXT (R213). -/
theorem stateError_outside (hf : f = .idle ∨ f = .ready) (hi : ¬ IsBlockCommand i) (hn : i ≠ .msgNext) :
    stateError i f = none :=
  stateError_legal (fun h => hi h.2) (fun h => hn h.2) fun h => not_inMessage_of_outside hf h.1

theorem stateError_needsKey (hi : needsKey i = true) (hf : f = .idle ∨ f = .ready) : stateError i f = none :=
  stateError_outside hf (by rintro (rfl | rfl) <;> cases hi) (by rintro rfl; cases hi)

theorem stateError_byteCommand (hi : IsByteCommand i) (hf : f = .idle ∨ f = .ready) : stateError i f = none :=
  stateError_outside hf (by rintro (rfl | rfl) <;> exact absurd hi (by decide))
    (by rintro rfl; exact absurd hi (by decide))

theorem stateError_blockCommand (hi : IsBlockCommand i) (hf : f = .ready) : stateError i f = none :=
  stateError_legal (by simp [hf]) (by rintro ⟨-, rfl⟩; exact absurd hi (by decide)) (by simp [hf])

theorem stateError_msgNext_legal (hf : f = .msgEnc ∨ f = .msgDec) : stateError .msgNext f = none :=
  stateError_legal (by simp) (fun h => h.1 hf) (by simp)

theorem needsDin_byteCommand (hi : IsByteCommand i) : needsDin i = true := by
  rcases hi with rfl | rfl | rfl | rfl <;> rfl

theorem needsDin_blockCommand (hi : IsBlockCommand i) : needsDin i = true := by
  rcases hi with rfl | rfl <;> rfl

end

/-- Settles O13: each check fails where its command is legal and the checks before it are met. -/
theorem lengthChecksRefuseMissingOperands : Obligations.LengthChecksRefuseMissingOperands := by
  intro s hp
  have hkey {i : Instr} (hi : needsKey i = true) (hf : s.fsm = .idle ∨ s.fsm = .ready) (hk : s.keyWr ≠ 0b1111#4) :=
    exec_keyLength hi hp (stateError_needsKey hi hf) hk
  have hblock {i : Instr} (hi : IsBlockCommand i) (hf : s.fsm = .ready) (hd : s.dinWr ≠ 0b1111#4) :=
    exec_blockLength (needsDin_blockCommand hi) hp (stateError_blockCommand hi hf) hd
  have hbyte {i : Instr} (hi : IsByteCommand i) (hf : s.fsm = .idle ∨ s.fsm = .ready) (hd : s.dinWr ≠ 0b1111#4) :=
    exec_blockLength (needsDin_byteCommand hi) hp (stateError_byteCommand hi hf) hd
  have hstart {i : Instr} (hi : isMsgStart i = true) (hf : s.fsm = .idle ∨ s.fsm = .ready) :=
    exec_msgLength hi hp (stateError_needsKey (needs_of_isMsgStart hi).1 hf)
  exact ⟨fun hf hk => ⟨hkey rfl hf hk, hkey rfl hf hk, hkey rfl hf hk⟩,
    fun hf hd => ⟨hblock (by decide) hf hd, hblock (by decide) hf hd⟩,
    fun hf hd => exec_blockLength rfl hp (stateError_msgNext_legal hf) hd,
    fun hf hd => ⟨hbyte (by decide) hf hd, hbyte (by decide) hf hd, hbyte (by decide) hf hd, hbyte (by decide) hf hd⟩,
    fun hf hk hb => ⟨hstart rfl hf hk hb, hstart rfl hf hk hb⟩⟩

end Sys2Proof.Machine
end

/-! ### Family 43_commands, masking and joining STATUS words field by field -/
section

namespace Sys2Proof.Machine

/-- A word laid out as STATUS is (R25). -/
def statusLayout (errcode dinWr keyWr : BitVec 4) (msgDone doutValid msgDir msgActive keyValid err done busy : Bool) : Word :=
  (errcode ++ dinWr ++ keyWr ++ BitVec.ofBool msgDone ++ BitVec.ofBool doutValid ++ BitVec.ofBool msgDir ++
    BitVec.ofBool msgActive ++ BitVec.ofBool keyValid ++ BitVec.ofBool err ++ BitVec.ofBool done ++
    BitVec.ofBool busy).setWidth 32

theorem statusWord_eq_layout (s : State) :
    statusWord s =
      statusLayout s.errcode s.dinWr s.keyWr s.msgDone s.doutValid (msgDir s) (msgActive s) (keyValid s) s.err s.done
        (busy s) := rfl

section

variable (c d k c' d' k' : BitVec 4) (b0 b1 b2 b3 b4 b5 b6 b7 b0' b1' b2' b3' b4' b5' b6' b7' : Bool)

/-- Words so laid out are masked field by field. -/
theorem statusLayout_and :
    statusLayout c d k b7 b6 b5 b4 b3 b2 b1 b0 &&& statusLayout c' d' k' b7' b6' b5' b4' b3' b2' b1' b0' =
      statusLayout (c &&& c') (d &&& d') (k &&& k') (b7 && b7') (b6 && b6') (b5 && b5') (b4 && b4') (b3 && b3')
        (b2 && b2') (b1 && b1') (b0 && b0') := by
  simp only [statusLayout, ← BitVec.setWidth_and, BitVec.and_append, BitVec.ofBool_and_ofBool]

/-- Words so laid out are joined field by field. -/
theorem statusLayout_or :
    statusLayout c d k b7 b6 b5 b4 b3 b2 b1 b0 ||| statusLayout c' d' k' b7' b6' b5' b4' b3' b2' b1' b0' =
      statusLayout (c ||| c') (d ||| d') (k ||| k') (b7 || b7') (b6 || b6') (b5 || b5') (b4 || b4') (b3 || b3')
        (b2 || b2') (b1 || b1') (b0 || b0') := by
  simp only [statusLayout, ← BitVec.setWidth_or, BitVec.or_append, BitVec.ofBool_or_ofBool]

end

/-- DONE and nothing else (R25). -/
theorem doneWord_eq_layout :
    0x00000002#32 = statusLayout 0x0#4 0x0#4 0x0#4 false false false false false false true false := by decide

/-- ERR and ERRCODE, as a mask of STATUS (R25). -/
theorem errorMask_eq_layout :
    0x000F0004#32 = statusLayout 0xF#4 0x0#4 0x0#4 false false false false false true false false := by decide

/-- STATUS with DONE and the error record alone: nothing pending or held, no flag of a message or a block, no mask (R25). -/
theorem done_or_errorRecord (s : State) :
    0x00000002#32 ||| (statusWord s &&& 0x000F0004#32) =
      statusLayout s.errcode 0x0#4 0x0#4 false false false false false s.err true false := by
  have hcode : s.errcode &&& 0xF#4 = s.errcode := BitVec.and_allOnes
  rw [doneWord_eq_layout, errorMask_eq_layout, statusWord_eq_layout, statusLayout_and, statusLayout_or, hcode]
  simp

end Sys2Proof.Machine
end

/-! ### Family 43_commands, each command by its rule

What a class of commands shares at the write to CMD is said once (`housekeeping_rule`, `ReadsBlock`, `StartsMessage`); the step of
a due completion is `finish` after the command's own effects (`step_due`). -/
section

namespace Sys2Proof.Machine

section

variable {i : Instr}

/-- NOP, MSG_ABORT and ZEROIZE are accepted whenever nothing is pending (R220, R227, R232). -/
theorem housekeeping_rule (hi : i = .nop ∨ i = .msgAbort ∨ i = .zeroize) {s : State} (hp : s.pend = none) :
    exec i s = .next (ownAcceptance i (acceptCommon i s)) := by
  rcases hi with rfl | rfl | rfl <;> exact exec_legal hp rfl nofun nofun nofun

/-- What the write to CMD of a command does that reads a block, is admitted in the sequencer states `legal` and refused with
SEQUENCE in the states `refused` (R211, R213, R214). -/
structure ReadsBlock (i : Instr) (legal refused : Fsm → Prop) : Prop where
  accepted : ∀ s : State, s.pend = none → legal s.fsm → s.dinWr = 0b1111#4 →
    exec i s = .next (ownAcceptance i (acceptCommon i s))
  busy : ∀ s : State, s.pend ≠ none → exec i s = .next (raiseError .busy s)
  sequence : ∀ s : State, s.pend = none → refused s.fsm → exec i s = .next (raiseError .sequence s)
  blockLength : ∀ s : State, s.pend = none → legal s.fsm → s.dinWr ≠ 0b1111#4 →
    exec i s = .next (raiseError .blockLength s)

theorem not_isMsgStart_of_needsDin (hi : needsDin i = true) : isMsgStart i = false := by
  revert hi
  cases i <;> decide

theorem readsBlock {legal refused : Fsm → Prop} (hi : needsDin i = true) (hl : ∀ f, legal f → stateError i f = none)
    (hr : ∀ f, refused f → stateError i f = some .sequence) : ReadsBlock i legal refused where
  accepted s hp hf hd :=
    exec_legal hp (hl _ hf) (by simp [needsKey_of_needsDin hi]) (fun _ => hd) (by simp [not_isMsgStart_of_needsDin hi])
  busy _ hp := exec_busy hp
  sequence _ hp hf := exec_stateError hp (hr _ hf)
  blockLength _ hp hf hd := exec_blockLength hi hp (hl _ hf) hd

theorem readsBlock_byteCommand (hi : IsByteCommand i) :
    ReadsBlock i (fun f => f = .idle ∨ f = .ready) (fun f => f = .msgEnc ∨ f = .msgDec) :=
  readsBlock (needsDin_byteCommand hi) (fun _ => stateError_byteCommand hi)
    fun _ hf => stateError_inMessage hf (by rcases hi with rfl | rfl | rfl | rfl <;> decide)

theorem readsBlock_blockCommand (hi : IsBlockCommand i) :
    ReadsBlock i (fun f => f = .ready) (fun f => f = .msgEnc ∨ f = .msgDec) :=
  readsBlock (needsDin_blockCommand hi) (fun _ => stateError_blockCommand hi)
    fun _ hf => stateError_inMessage hf (by rcases hi with rfl | rfl <;> decide)

theorem readsBlock_msgNext :
    ReadsBlock .msgNext (fun f => f = .msgEnc ∨ f = .msgDec) (fun f => f = .idle ∨ f = .ready) :=
  readsBlock rfl (fun _ => stateError_msgNext_legal)
    fun _ hf => stateError_msgNext (not_inMessage_of_outside hf) rfl

end

/-- The step of a due completion (R212). -/
theorem step_due {i : Instr} {p : Pending} {s : State} (h : DueWith i p s) :
    step s = .next (finish (ownCompletion i p s)) := by
  obtain ⟨hp, rfl, hw, hr⟩ := h
  rw [step_completion ((completionDue_iff s).2 ⟨by simp [hp], hw⟩) hr, complete_pending hp]

/-- The DOUT that a due completion leaves is its command's (R35). -/
theorem step_due_dout {i : Instr} {p : Pending} {s : State} (h : DueWith i p s) {q : Quad Word}
    (hq : (ownCompletion i p s).dout = q) : ∃ t, step s = .next t ∧ t.dout = q :=
  ⟨_, step_due h, hq⟩

/-- Settles O14: the housekeeping rule; from reset, STATUS is computed. -/
theorem nopRunsByItsRule : Obligations.NopRunsByItsRule := by
  have haccept (s : State) (hp : s.pend = none) := housekeeping_rule (i := .nop) (.inl rfl) hp
  refine ⟨rfl, haccept, fun s => exec_busy, fun s p => step_due, fun t h => ?_⟩
  rw [haccept State.reset rfl] at h
  cases h
  rfl

/-- KeyExpansion of the zero key, its second round key. -/
theorem keyExpansion_zero_k1 :
    (keyExpansion Block.zero).k1 = blockOf ⟨0x62636363#32, 0x62636363#32, 0x62636363#32, 0x62636363#32⟩ := by
  decide +kernel

/-- Settles O15: the checks of a keyed command, and the schedule of the latched key. -/
theorem expandKeyRunsByItsRule : Obligations.ExpandKeyRunsByItsRule := by
  refine ⟨rfl, fun s hp hf hk => ?_, fun s => exec_busy, fun s hp hf => ?_, fun s hp hf hk => ?_, fun s p => step_due,
    fun s p h hz => ?_⟩
  · exact exec_legal hp (stateError_needsKey rfl hf) (fun _ => hk) nofun nofun
  · exact exec_stateError hp (stateError_inMessage hf (by decide))
  · exact exec_keyLength rfl hp (stateError_needsKey rfl hf) hk
  · exact ⟨_, step_due h, by rw [finish_rk, ownCompletion_rk, hz, keyExpansion_zero_k1]⟩

/-- The known answer of the cipher for the zero key and the zero block. -/
theorem cipher_zero :
    cipher Block.zero (keyExpansion Block.zero) =
      blockOf ⟨0x66e94bd4#32, 0xef8a2c3b#32, 0x884cfa59#32, 0xca342b2e#32⟩ := by
  decide +kernel

/-- Settles O16: the block commands' rule, NO_KEY in IDLE, and the known answer of the cipher. -/
theorem encBlockRunsByItsRule : Obligations.EncBlockRunsByItsRule := by
  obtain ⟨haccept, hbusy, hsequence, hlength⟩ := readsBlock_blockCommand (i := .encBlock) (.inl rfl)
  refine ⟨rfl, haccept, hbusy, fun s hp hf => ?_, hsequence, hlength, fun s p => step_due, fun s p h hrk hin => ?_⟩
  · exact exec_stateError hp (stateError_idle hf (.inl rfl))
  · exact step_due_dout h (by rw [ownCompletion_dout, hin, hrk, cipher_zero, wordsOf_blockOf])

/-- Settles O17: as ENC_BLOCK; the known answer is that of the cipher, undone. -/
theorem decBlockRunsByItsRule : Obligations.DecBlockRunsByItsRule := by
  obtain ⟨haccept, hbusy, hsequence, hlength⟩ := readsBlock_blockCommand (i := .decBlock) (.inr rfl)
  refine ⟨rfl, haccept, hbusy, fun s hp hf => ?_, hsequence, hlength, fun s p => step_due, fun s p h hrk hin => ?_⟩
  · exact exec_stateError hp (stateError_idle hf (.inr rfl))
  · exact step_due_dout h (by rw [ownCompletion_dout, hin, hrk, ← cipher_zero, invCipher_cipher]; rfl)

/-- What the two message starts do when written to CMD (R213, R214, R224, R225). -/
structure StartsMessage (i : Instr) : Prop where
  accepted : ∀ s : State, s.pend = none → (s.fsm = .idle ∨ s.fsm = .ready) → s.keyWr = 0b1111#4 → s.blkcnt ≠ 0#16 →
    exec i s = .next (ownAcceptance i (acceptCommon i s))
  busy : ∀ s : State, s.pend ≠ none → exec i s = .next (raiseError .busy s)
  sequence : ∀ s : State, s.pend = none → (s.fsm = .msgEnc ∨ s.fsm = .msgDec) →
    exec i s = .next (raiseError .sequence s)
  keyLength : ∀ s : State, s.pend = none → (s.fsm = .idle ∨ s.fsm = .ready) → s.keyWr ≠ 0b1111#4 →
    exec i s = .next (raiseError .keyLength s)
  msgLength : ∀ s : State, s.pend = none → (s.fsm = .idle ∨ s.fsm = .ready) → s.keyWr = 0b1111#4 → s.blkcnt = 0#16 →
    exec i s = .next (raiseError .msgLength s)

theorem startsMessage {i : Instr} (hi : isMsgStart i = true) : StartsMessage i := by
  obtain ⟨hkey, hdin⟩ := needs_of_isMsgStart hi
  have hrefused : RefusedInMessage i := by rcases (isMsgStart_iff i).1 hi with rfl | rfl <;> decide
  exact
    { accepted := fun s hp hf hk hb =>
        exec_legal hp (stateError_needsKey hkey hf) (fun _ => hk) (by simp [hdin]) (fun _ => hb)
      busy := fun s => exec_busy
      sequence := fun s hp hf => exec_stateError hp (stateError_inMessage hf hrefused)
      keyLength := fun s hp hf => exec_keyLength hkey hp (stateError_needsKey hkey hf)
      msgLength := fun s hp hf => exec_msgLength hi hp (stateError_needsKey hkey hf) }

/-- Settles O18: the message starts' rule, and the due completion. -/
theorem msgStartEncRunsByItsRule : Obligations.MsgStartEncRunsByItsRule := by
  obtain ⟨haccept, hbusy, hsequence, hkey, hcount⟩ := startsMessage (i := .msgStartEnc) rfl
  exact ⟨rfl, haccept, hbusy, hsequence, hkey, hcount, fun s p => step_due⟩

/-- Settles O19: the message starts' rule, and the due completion. -/
theorem msgStartDecRunsByItsRule : Obligations.MsgStartDecRunsByItsRule := by
  obtain ⟨haccept, hbusy, hsequence, hkey, hcount⟩ := startsMessage (i := .msgStartDec) rfl
  exact ⟨rfl, haccept, hbusy, hsequence, hkey, hcount, fun s p => step_due⟩

/-- MSG_NEXT before the last block: the output and the count (R226). -/
theorem completeMsgNext_more {p : Pending} {s : State} (h : s.blkidx + 1#16 ≠ s.msgCnt) :
    completeMsgNext p s = storeDout (msgNextOutput p s) { s with blkidx := s.blkidx + 1#16 } :=
  if_neg h

/-- MSG_NEXT at the last block: the message ends with it (R226). -/
theorem completeMsgNext_last {p : Pending} {s : State} (h : s.blkidx + 1#16 = s.msgCnt) :
    completeMsgNext p s = endMessage (storeDout (msgNextOutput p s) { s with blkidx := s.blkidx + 1#16 }) :=
  if_pos h

/-- The first block of program P2 under its key. -/
theorem cipher_p2 :
    cipher (blockOf ⟨0x6bc1bee2#32, 0x2e409f96#32, 0xe93d7e11#32, 0x7393172a#32⟩)
        (keyExpansion (blockOf ⟨0x2b7e1516#32, 0x28aed2a6#32, 0xabf71588#32, 0x09cf4f3c#32⟩)) =
      blockOf ⟨0x3ad77bb4#32, 0x0d7a3660#32, 0xa89ecaf3#32, 0x2466ef97#32⟩ := by
  decide +kernel

/-- Settles O20: the rule of a block reader, admitted in a message; a block before the last, the last, and P2's first. -/
theorem msgNextRunsByItsRule : Obligations.MsgNextRunsByItsRule := by
  obtain ⟨haccept, hbusy, hsequence, hlength⟩ := readsBlock_msgNext
  refine ⟨rfl, haccept, hbusy, hsequence, hlength, fun s p h => ⟨fun hmore => ?_, fun hlast => ?_⟩,
    fun s p h hf hrk hin => ?_⟩
  · rw [step_due h, ownCompletion, completeMsgNext_more hmore]; rfl
  · rw [step_due h, ownCompletion, completeMsgNext_last hlast]; rfl
  · exact step_due_dout h (by rw [ownCompletion_dout, msgNextOutput, if_pos hf, hin, hrk, cipher_p2, wordsOf_blockOf])

/-- Settles O21: the housekeeping rule; the completion by whether a message is in progress. -/
theorem msgAbortRunsByItsRule : Obligations.MsgAbortRunsByItsRule := by
  refine ⟨rfl, fun s hp => housekeeping_rule (.inr (.inl rfl)) hp, fun s => exec_busy,
    fun s p h => ⟨fun hf => ?_, fun hf => ?_⟩⟩
  · rw [step_due h, ownCompletion, completeMsgAbort, if_pos ((inMessage_iff s.fsm).2 hf)]; rfl
  · rw [step_due h, ownCompletion, completeMsgAbort, if_neg (mt (inMessage_iff s.fsm).1 (not_inMessage_of_outside hf))]; rfl

@[simp] theorem byte_mapBytes (f : Byte → Byte) (b : Block) (j : Fin 16) : (b.mapBytes f).byte j = f (b.byte j) :=
  entry_mapBytes f b _ _

/-- The S-box on the bytes 0 to 15. -/
theorem mapBytes_sboxByte_counting :
    (blockOf ⟨0x00010203#32, 0x04050607#32, 0x08090a0b#32, 0x0c0d0e0f#32⟩).mapBytes sboxByte =
      blockOf ⟨0x637c777b#32, 0xf26b6fc5#32, 0x3001672b#32, 0xfed7ab76#32⟩ := by
  decide +kernel

/-- The inverse S-box undoes the S-box on the bytes of a block (R131). -/
theorem mapBytes_invSboxByte_sboxByte (b : Block) : (b.mapBytes sboxByte).mapBytes invSboxByte = b :=
  invSubBytes_subBytes b

/-- The field inverses of the bytes 0 to 15. -/
theorem mapBytes_ginv_counting :
    (blockOf ⟨0x00010203#32, 0x04050607#32, 0x08090a0b#32, 0x0c0d0e0f#32⟩).mapBytes ginv =
      blockOf ⟨0x00018df6#32, 0xcb527bd1#32, 0xe84f29c0#32, 0xb0e1e5c7#32⟩ := by
  decide +kernel

/-- The products of the vector of R231 with 0x83. -/
theorem mapBytes_gmul_0x83 :
    ((blockOf ⟨0x57575757#32, 0x800102ff#32, 0x53ca8df6#32, 0x000102fe#32⟩).mapBytes fun x => gmul x 0x83#8) =
      blockOf ⟨0xc1c1c1c1#32, 0x01831d7f#32, 0xfbe5cc88#32, 0x00831dfc#32⟩ := by
  decide +kernel

/-- Settles O22: the byte commands' rule, and the S-box byte by byte. -/
theorem sboxRunsByItsRule : Obligations.SboxRunsByItsRule := by
  obtain ⟨haccept, hbusy, hsequence, hlength⟩ := readsBlock_byteCommand (i := .sbox) (by decide)
  refine ⟨rfl, haccept, hbusy, hsequence, hlength, fun s p h => ⟨_, byte_mapBytes sboxByte p.ldin, step_due h⟩,
    fun s p h hin => ?_⟩
  exact step_due_dout h (by rw [ownCompletion_dout, hin, mapBytes_sboxByte_counting, wordsOf_blockOf])

/-- Settles O23: the byte commands' rule; the known answer is that of SBOX, undone. -/
theorem invSboxRunsByItsRule : Obligations.InvSboxRunsByItsRule := by
  obtain ⟨haccept, hbusy, hsequence, hlength⟩ := readsBlock_byteCommand (i := .invSbox) (by decide)
  refine ⟨rfl, haccept, hbusy, hsequence, hlength, fun s p h => ⟨_, byte_mapBytes invSboxByte p.ldin, step_due h⟩,
    fun s p h hin => ?_⟩
  exact step_due_dout h (by
    rw [ownCompletion_dout, hin, ← mapBytes_sboxByte_counting, mapBytes_invSboxByte_sboxByte, wordsOf_blockOf])

@[simp] theorem ginv_one : ginv 0x01#8 = 0x01#8 :=
  ((gmul_eq_one_iff (by decide) _).1 (gmul_one_left 0x01#8)).symm

/-- Settles O24: the byte commands' rule; 0 and 1 are their own inverses. -/
theorem gfInvRunsByItsRule : Obligations.GfInvRunsByItsRule := by
  obtain ⟨haccept, hbusy, hsequence, hlength⟩ := readsBlock_byteCommand (i := .gfInv) (by decide)
  refine ⟨rfl, haccept, hbusy, hsequence, hlength, fun s p h => ?_, fun s p h hin => ?_⟩
  · have hbyte := byte_mapBytes ginv p.ldin
    exact ⟨_, hbyte, fun j hj => by rw [hbyte, hj, ginv_zero], fun j hj => by rw [hbyte, hj, ginv_one], step_due h⟩
  · exact step_due_dout h (by rw [ownCompletion_dout, hin, mapBytes_ginv_counting, wordsOf_blockOf])

/-- Multiplying every byte by 0 gives the zero block (R231). -/
theorem mapBytes_gmul_zero (b : Block) : (b.mapBytes fun x => gmul x 0x00#8) = Block.zero :=
  block_ext_entry fun r c => by rw [entry_mapBytes, gmul_zero_right]; simp [Block.zero, Block.entry]

/-- Multiplying every byte by 1 changes nothing (R231). -/
theorem mapBytes_gmul_one (b : Block) : (b.mapBytes fun x => gmul x 0x01#8) = b :=
  block_ext_entry fun r c => by rw [entry_mapBytes, gmul_one_right]

/-- Settles O25: the byte commands' rule; 0 annihilates and 1 is neutral. -/
theorem gfMulRunsByItsRule : Obligations.GfMulRunsByItsRule := by
  obtain ⟨haccept, hbusy, hsequence, hlength⟩ := readsBlock_byteCommand (i := .gfMul) (by decide)
  refine ⟨rfl, haccept, hbusy, hsequence, hlength, fun s p h => ?_, fun s p h hin hb => ?_⟩
  · refine ⟨_, byte_mapBytes (fun x => gmul x p.lgfb) p.ldin, fun hz => ?_, fun hone => ?_, step_due h⟩
    · rw [hz, mapBytes_gmul_zero]
    · rw [hone, mapBytes_gmul_one]
  · exact step_due_dout h (by rw [ownCompletion_dout, hin, hb, mapBytes_gmul_0x83, wordsOf_blockOf])

/-- Settles O26: the housekeeping rule; after completion STATUS has DONE and the error record alone. -/
theorem zeroizeRunsByItsRule : Obligations.ZeroizeRunsByItsRule := by
  have haccept (s : State) (hp : s.pend = none) := housekeeping_rule (i := .zeroize) (.inr (.inr rfl)) hp
  refine ⟨rfl, haccept, fun s => exec_busy, fun s p => step_due, fun s t hp h => ?_⟩
  rw [haccept s hp] at h
  cases h
  exact (done_or_errorRecord s).symm

end Sys2Proof.Machine
end

/-! ### Family 43_commands, what a step takes, and the sequencer's moves -/
section

namespace Sys2Proof.Machine

/-- A command word written to CMD is acknowledged and run as its command (R78, R210). -/
theorem access_command {v : Word} {i : Instr} (hv : decode v = .ok i) (s : State) :
    access (.write 0x08#8 v 0xF#4) s = exec i (answer (.writeDone false) s) := by
  rw [show 0x08#8 = offsetOf .cmd from rfl, access_write_reg, writeReg, writeCmd, hv]

/-- The step that takes a command word runs the command it decodes to (R210). -/
theorem step_command {s : State} {v : Word} {i : Instr} {rest : List Event}
    (hs : s.script = commandEvent v :: rest) (hv : decode v = .ok i) (hd : completionDue s = false) :
    step s = exec i (acknowledged rest s) := by
  rw [step_access hs hd, access_command hv, acknowledged]

/-- Taking a placed event undoes the placing but for the step of waiting, which is not put off (assumption log 5). -/
theorem acknowledged_withNextEvent (e : Event) (s : State) :
    acknowledged s.script (withNextEvent e s) = acknowledged s.script s := by
  have hwait : (if completionDue s then 1 else s.wait) - 1 = s.wait - 1 := by
    split
    next hd => rw [((completionDue_iff s).1 hd).2]
    next => rfl
  simp [acknowledged, answer, tick, takeEvent, withNextEvent, hwait]

/-- Settles O27: the next command word, the due completion, and the placed word. -/
theorem stepTakesTheNextCommandWord : Obligations.StepTakesTheNextCommandWord := by
  refine ⟨fun s v i rest => step_command, fun s => step_completion, fun s w i hv => ?_⟩
  rw [State.withFetchWord, step_command rfl hv (completionDue_withNextEvent _ s), acknowledged_withNextEvent]
  rfl

/-- A step that is neither a due completion nor a reset leaves the sequencer where it is, acceptances among them (R240). -/
theorem step_fsm {s t : State} (h : step s = .next t) (hd : completionDue s = false) (hr : resetNext s = false) :
    t.fsm = s.fsm := by
  rcases step_kinds h with ⟨hdue, -⟩ | ⟨rest, hs, -⟩ | ⟨rest, i, -, rfl⟩ | ⟨hk, -⟩
  · rw [hd] at hdue; cases hdue
  · rw [(resetNext_iff s).2 ⟨rest, hs⟩] at hr; cases hr
  · exact ownAcceptance_fsm i _
  · exact hk.fsm

/-- A pending command that expands a key was accepted outside a message, MSG_NEXT in one (R213). -/
theorem fsm_of_stateError_none {i : Instr} {f : Fsm} (h : stateError i f = none) :
    (i = .expandKey ∨ i = .msgStartEnc ∨ i = .msgStartDec → f = .idle ∨ f = .ready) ∧
      (i = .msgNext → f = .msgEnc ∨ f = .msgDec) := by
  constructor
  · intro hi
    by_contra hf
    have hmsg := (outside_or_inMessage f).resolve_left hf
    rw [stateError_inMessage hmsg (by rcases hi with rfl | rfl | rfl <;> decide)] at h
    cases h
  · intro hi
    by_contra hf
    rw [stateError_msgNext hf hi] at h
    cases h

/-- Settles O33: the completion's row of the table, a reset, every other step, and RK by the invariant. -/
theorem sequencerMovesOnlyByItsTable : Obligations.SequencerMovesOnlyByItsTable := by
  intro s t hinv h
  refine ⟨fun p hp hw hr => ?_, fun hr => ?_, step_fsm h, fun hidle _ => ?_⟩
  · rw [step_completion ((completionDue_iff s).2 ⟨by simp [hp], hw⟩) hr, complete_pending hp] at h
    cases h
    obtain ⟨hlegal, -⟩ := (pendingSound_of_some hp).1 hinv.pending
    refine ⟨?_, fsm_of_stateError_none hlegal⟩
    rw [finish_fsm, ownCompletion_fsm]
    cases p.op with
    | msgAbort => simp only [inMessage_iff]
    | _ => rfl
  · obtain ⟨rest, hs⟩ := (resetNext_iff s).1 hr
    rw [step_reset hs] at h
    cases h
    rfl
  · obtain ⟨hzero, -⟩ := (everyStepKeepsTheInvariant s t hinv h).schedule
    exact hzero hidle

end Sys2Proof.Machine
end

/-! ### Family 44_host_framing, what one action of a driver does

A driver acts on a core that has nothing pending. What its writes, reads and commands do is then said up to the steps to wait and
the last answer (`SameButBus`); a command with its WAIT ends in the state of its completion (`completed`). -/
section

namespace Sys2Proof.Machine

/-- `s` with the model's own record of the outside replaced: the steps to wait, the events to come, the last answer (assumption
logs 1 to 3). -/
def setOutside (w : Nat) (events : List Event) (r : Option Response) (s : State) : State :=
  { s with wait := w, script := events, resp := r }

/-- `t` is `s` but for the steps to wait and the last answer of the bus. -/
def SameButBus (s t : State) : Prop := ∃ w r, t = setOutside w s.script r s

theorem SameButBus.refl (s : State) : SameButBus s s := ⟨s.wait, s.resp, rfl⟩

/-! Acceptance and completion read nothing of the outside's record (R211, R212). -/

section

variable (i : Instr) (w : Nat) (events : List Event) (r : Option Response) (s : State)

theorem completeMsgNext_setOutside (p : Pending) :
    completeMsgNext p (setOutside w events r s) = setOutside w events r (completeMsgNext p s) := by
  by_cases h : s.blkidx + 1#16 = s.msgCnt
  · rw [completeMsgNext_last h, completeMsgNext_last (s := setOutside w events r s) h]; rfl
  · rw [completeMsgNext_more h, completeMsgNext_more (s := setOutside w events r s) h]; rfl

theorem completeMsgAbort_setOutside (p : Pending) :
    completeMsgAbort p (setOutside w events r s) = setOutside w events r (completeMsgAbort p s) := by
  have hfsm : (setOutside w events r s).fsm = s.fsm := rfl
  rw [completeMsgAbort, completeMsgAbort, hfsm]
  split <;> rfl

theorem ownCompletion_setOutside (p : Pending) :
    ownCompletion i p (setOutside w events r s) = setOutside w events r (ownCompletion i p s) := by
  cases i with
  | msgNext => exact completeMsgNext_setOutside w events r s p
  | msgAbort => exact completeMsgAbort_setOutside w events r s p
  | nop | expandKey | encBlock | decBlock | msgStartEnc | msgStartDec | sbox | invSbox | gfInv | gfMul | zeroize => rfl

theorem acceptance_setOutside :
    ownAcceptance i (acceptCommon i (setOutside w events r s)) =
      setOutside (Config.latency s.accepts i) events r (ownAcceptance i (acceptCommon i s)) := by
  cases i <;> rfl

theorem acceptance_script : (ownAcceptance i (acceptCommon i s)).script = s.script := by
  cases i <;> rfl

theorem ownCompletion_script (p : Pending) : (ownCompletion i p s).script = s.script := by
  obtain ⟨-, -, -, -, -, -, -, -, -, -, -, -, -, hscript, -⟩ := ownCompletion_frame i p s
  exact hscript

/-- The state after command `i` has been accepted in `s` and has completed, with nothing else between (R211, R212). -/
def completed : State := finish (ownCompletion i (latch i s) (ownAcceptance i (acceptCommon i s)))

theorem completed_err : (completed i s).err = s.err := by
  obtain ⟨herr, -⟩ := ownCompletion_frame i (latch i s) (ownAcceptance i (acceptCommon i s))
  rw [completed, finish_err, herr, ownAcceptance_err, acceptCommon_err]

theorem completed_script : (completed i s).script = s.script := by
  rw [completed, finish_script, ownCompletion_script, acceptance_script]

end

/-! One event of a driver, placed first, on a core with nothing pending. -/

section

variable {s t : State}

theorem advance_of_step (h : step s = .next t) : advance s = t := by rw [advance, h]

theorem advanceBy_succ (n : Nat) (h : step s = .next t) : advanceBy (n + 1) s = advanceBy n t := by
  rw [advanceBy, Function.iterate_succ_apply, advance_of_step h, advanceBy]

theorem completionDue_idle (hp : s.pend = none) : completionDue s = false := by simp [completionDue, hp]

/-- A driver's transaction is taken by the very next step. -/
theorem performEvent_access {x : Txn} (hp : s.pend = none) (h : access x (tick s) = .next t) :
    performEvent s (.access x) = t := by
  have hstep : step (pushEvent (.access x) s) = .next t := by
    rw [step_access rfl (completionDue_idle (s := pushEvent (.access x) s) hp)]; exact h
  rw [performEvent, stepsToTake, completionDue_idle hp, if_neg Bool.false_ne_true, advanceBy_succ 0 hstep]
  rfl

theorem performEvent_write {r : Reg} {v : Word} (hp : s.pend = none)
    (h : writeReg r v (answer (.writeDone false) (tick s)) = .next t) :
    performEvent s (.access (writeTxn (offsetOf r) v)) = t :=
  performEvent_access hp ((access_write_reg r v _).trans h)

/-- The state with word `j` of the key written (R78). -/
def putKey (j : Fin 4) (v : Word) (s : State) : State := { s with key := s.key.set j v, keyWr := markWritten s.keyWr j }

/-- The state with word `j` of the block written (R78). -/
def putDin (j : Fin 4) (v : Word) (s : State) : State := { s with din := s.din.set j v, dinWr := markWritten s.dinWr j }

/-- The state with a whole key written (R33, R107). -/
def withKey (k : Block) (s : State) : State := { s with key := wordsOf k, keyWr := 0b1111#4 }

/-- The state with a whole block written (R34, R107). -/
def withDin (b : Block) (s : State) : State := { s with din := wordsOf b, dinWr := 0b1111#4 }

/-- A mask with all four bits marked is full, whatever it was (R32). -/
theorem markWritten_all (m : BitVec 4) : markWritten (markWritten (markWritten (markWritten m 0) 1) 2) 3 = 0b1111#4 := by
  revert m; decide

theorem putKey_all (k : Block) (s : State) :
    putKey 3 ((wordsOf k).get 3) (putKey 2 ((wordsOf k).get 2) (putKey 1 ((wordsOf k).get 1) (putKey 0 ((wordsOf k).get 0) s))) =
      withKey k s := by
  rw [withKey, ← markWritten_all s.keyWr]; rfl

theorem putDin_all (b : Block) (s : State) :
    putDin 3 ((wordsOf b).get 3) (putDin 2 ((wordsOf b).get 2) (putDin 1 ((wordsOf b).get 1) (putDin 0 ((wordsOf b).get 0) s))) =
      withDin b s := by
  rw [withDin, ← markWritten_all s.dinWr]; rfl

theorem performEvent_key (j : Fin 4) (v : Word) (h : SameButBus s t) (hp : s.pend = none) :
    SameButBus (putKey j v s) (performEvent t (.access (writeTxn (offsetOf (.key j)) v))) := by
  obtain ⟨w, r, rfl⟩ := h
  exact ⟨w - 1, some (.writeDone false), performEvent_write hp rfl⟩

theorem performEvent_din (j : Fin 4) (v : Word) (h : SameButBus s t) (hp : s.pend = none) :
    SameButBus (putDin j v s) (performEvent t (.access (writeTxn (offsetOf (.din j)) v))) := by
  obtain ⟨w, r, rfl⟩ := h
  exact ⟨w - 1, some (.writeDone false), performEvent_write hp rfl⟩

theorem perform_ldkey (k : Block) (h : SameButBus s t) (hp : s.pend = none) :
    SameButBus (withKey k s) (perform (.ldkey k) t) := by
  rw [← putKey_all]
  exact performEvent_key 3 _ (performEvent_key 2 _ (performEvent_key 1 _ (performEvent_key 0 _ h hp) hp) hp) hp

theorem perform_ldblk (b : Block) (h : SameButBus s t) (hp : s.pend = none) :
    SameButBus (withDin b s) (perform (.ldblk b) t) := by
  rw [← putDin_all]
  exact performEvent_din 3 _ (performEvent_din 2 _ (performEvent_din 1 _ (performEvent_din 0 _ h hp) hp) hp) hp

/-- The state with the block count written (R37, R78). -/
def withBlkcnt (v : Word) (s : State) : State := { s with blkcnt := v.extractLsb' 0 16 }

theorem perform_blkcnt (v : Word) (h : SameButBus s t) (hp : s.pend = none) :
    SameButBus (withBlkcnt v s) (perform (.w (offsetOf .blkcnt) v) t) := by
  obtain ⟨w, r, rfl⟩ := h
  exact ⟨w - 1, some (.writeDone false), performEvent_write (r := .blkcnt) hp rfl⟩

theorem readReg_setOutside (reg : Reg) (w : Nat) (events : List Event) (r : Option Response) (s : State) :
    readReg reg (setOutside w events r s) = readReg reg s := by
  cases reg <;> rfl

/-- A read returns the register and changes nothing else (R77, R81). -/
theorem readAt_eq (reg : Reg) (h : SameButBus s t) (hp : s.pend = none) :
    ∃ u, SameButBus s u ∧ readAt (offsetOf reg) t = (readReg reg s, u) := by
  obtain ⟨w, r, rfl⟩ := h
  have hperform : perform (.r (offsetOf reg)) (setOutside w s.script r s) =
      setOutside (w - 1) s.script (some (.readData (readReg reg s) false)) s := by
    rw [← readReg_setOutside reg (w - 1) s.script r s]
    exact performEvent_access hp (access_read_reg reg _)
  exact ⟨_, ⟨_, _, rfl⟩, by simp only [readAt, hperform]; rfl⟩

/-- With no error recorded a driver's check reads STATUS and goes on (R280). -/
theorem checked_eq (h : SameButBus s t) (hp : s.pend = none) (he : s.err = false) :
    ∃ u, SameButBus s u ∧ ∀ rest, checked t rest = rest u := by
  obtain ⟨u, hu, hread⟩ := readAt_eq .status h hp
  have herr : ¬ (readReg .status s).getLsbD 2 = true := by
    obtain ⟨-, -, herr, -⟩ := statusWord_flags s
    rw [readReg, herr, he]
    exact Bool.false_ne_true
  exact ⟨u, hu, fun rest => by simp only [checked, hread, if_neg herr]⟩

/-- `RDOUT` gives the block in DOUT (R107). -/
theorem readOutput_eq (h : SameButBus s t) (hp : s.pend = none) :
    ∃ u, SameButBus s u ∧ readOutput t = (blockOf s.dout, u) := by
  obtain ⟨t0, h0, hread0⟩ := readAt_eq (.dout 0) h hp
  obtain ⟨t1, h1, hread1⟩ := readAt_eq (.dout 1) h0 hp
  obtain ⟨t2, h2, hread2⟩ := readAt_eq (.dout 2) h1 hp
  obtain ⟨t3, h3, hread3⟩ := readAt_eq (.dout 3) h2 hp
  exact ⟨t3, h3, by simp only [readOutput, hread0, hread1, hread2, hread3]; rfl⟩

/-- A WAIT for a pending command counts the steps down, sees the completion, and ends with a read of STATUS (R107, R246). -/
theorem advanceBy_poll {p : Pending} {rest : List Event} (h : s.script = .pollBusy :: rest) (hp : s.pend = some p) :
    ∃ r, advanceBy (s.wait + 2) s = setOutside 0 rest r (finish (ownCompletion p.op p s)) := by
  generalize hw : s.wait = w
  induction w generalizing s with
  | zero =>
    have hstep := step_completion (s := s) (by simp [completionDue, hp, hw]) (by simp [resetNext, h])
    have hlast := step_poll_idle ((complete_script s).trans h) (by rw [complete_pending hp, finish_pend])
    rw [advanceBy_succ 1 hstep, advanceBy_succ 0 hlast, complete_pending hp]
    exact ⟨_, rfl⟩
  | succ w ih =>
    have hstep := step_poll_waiting h hp (by simp [completionDue, hw])
    obtain ⟨r, hr⟩ := ih (s := answer (.readData (statusWord s) false) (tick s)) h hp (by simp [hw])
    refine ⟨r, ?_⟩
    rw [advanceBy_succ (w + 2) hstep, hr,
      show answer (.readData (statusWord s) false) (tick s) = setOutside (s.wait - 1) s.script _ s from rfl,
      ownCompletion_setOutside]
    rfl

/-- A command that is accepted has its acceptance effects (R210, R211). -/
theorem perform_cmd {i : Instr} (h : SameButBus s t) (hi : firstRefusal i s = none) :
    SameButBus (ownAcceptance i (acceptCommon i s)) (perform (.cmd i) t) := by
  obtain ⟨hp, -⟩ := (firstRefusal_none_iff i s).1 hi
  obtain ⟨w, r, rfl⟩ := h
  have hexec : exec i (setOutside (w - 1) s.script (some (.writeDone false)) s) = _ := exec_accepted hi
  rw [acceptance_setOutside] at hexec
  rw [SameButBus, acceptance_script]
  exact ⟨_, _, performEvent_access (s := setOutside w s.script r s) hp ((access_command (decode_encode i) _).trans hexec)⟩

/-- A WAIT ends when the pending command has completed (R107, R246). -/
theorem perform_wait {p : Pending} (h : SameButBus s t) (hp : s.pend = some p) :
    SameButBus (finish (ownCompletion p.op p s)) (perform .wait t) := by
  obtain ⟨w, r, rfl⟩ := h
  obtain ⟨r', hr'⟩ := advanceBy_poll (s := setOutside w (.pollBusy :: s.script) r s) rfl hp
  have hsteps : perform .wait (setOutside w s.script r s) = advanceBy (w + 2) (setOutside w (.pollBusy :: s.script) r s) := by
    have hbusy : busy (setOutside w s.script r s) = true := by simp [busy, setOutside, hp]
    rw [perform, stmtEvents, List.foldl_cons, List.foldl_nil, performEvent, stepsToTake, if_pos hbusy]
    rfl
  refine ⟨0, r', hsteps.trans (hr'.trans ?_)⟩
  rw [ownCompletion_setOutside, finish_script, ownCompletion_script]
  rfl

/-- A command that is accepted, and its WAIT: the command has completed (R211, R212, R246). -/
theorem runCommand_eq {i : Instr} (h : SameButBus s t) (hi : firstRefusal i s = none) :
    SameButBus (completed i s) (runCommand i t) :=
  perform_wait (p := latch i s) (perform_cmd h hi) (ownAcceptance_pend i _)

end

end Sys2Proof.Machine
end

/-! ### Family 44_host_framing, the drivers

Each pass of `runBlocks` gives the block its command leaves in DOUT (`runBlocks_cons`). The message-mode driver keeps `InMessage`
from block to block and `MessageEnded` from message to message, the block-mode driver keeps `Expanded`. -/
section

namespace Sys2Proof.Machine

/-- Nothing pending, no error, and the events to come are `events`: what every action of a driver starts from and leaves. -/
structure Quiet (events : List Event) (s : State) : Prop where
  pend : s.pend = none
  err : s.err = false
  script : s.script = events

section

variable {events : List Event} {s t : State}

theorem Quiet.of_sameButBus (h : Quiet events s) (hs : SameButBus s t) : Quiet events t := by
  obtain ⟨w, r, rfl⟩ := hs
  exact ⟨h.pend, h.err, h.script⟩

theorem Quiet.command (h : Quiet events s) (i : Instr) : Quiet events (completed i s) :=
  ⟨rfl, (completed_err i s).trans h.err, (completed_script i s).trans h.script⟩

theorem Quiet.loadKey (h : Quiet events s) (k : Block) : Quiet events (withKey k s) := ⟨h.pend, h.err, h.script⟩

theorem Quiet.loadDin (h : Quiet events s) (b : Block) : Quiet events (withDin b s) := ⟨h.pend, h.err, h.script⟩

theorem Quiet.loadBlkcnt (h : Quiet events s) (v : Word) : Quiet events (withBlkcnt v s) := ⟨h.pend, h.err, h.script⟩

/-- A block command on a block just loaded is accepted where the sequencer admits it (R211). -/
theorem firstRefusal_withDin {i : Instr} (h : Quiet events s) (hi : needsDin i = true) (hf : stateError i s.fsm = none)
    (b : Block) : firstRefusal i (withDin b s) = none :=
  (firstRefusal_none_iff i _).2
    ⟨h.pend, hf, by simp [needsKey_of_needsDin hi], fun _ => rfl, by simp [not_isMsgStart_of_needsDin hi]⟩

/-- One pass of a driver's loop: the block is loaded, its command completes, the check finds no error, DOUT is read (R280, R281). -/
theorem runBlocks_cons {i : Instr} (h : Quiet events s) (hi : needsDin i = true) (hf : stateError i s.fsm = none) (b : Block) :
    ∃ u, SameButBus (completed i (withDin b s)) u ∧
      ∀ more out rest, runBlocks i (b :: more) out s rest =
        runBlocks i more (out ++ [blockOf (completed i (withDin b s)).dout]) u rest := by
  have hquiet := (h.loadDin b).command i
  have hrun := runCommand_eq (perform_ldblk b (.refl s) h.pend) (firstRefusal_withDin h hi hf b)
  obtain ⟨t, ht, hcheck⟩ := checked_eq hrun hquiet.pend hquiet.err
  obtain ⟨u, hu, hread⟩ := readOutput_eq ht hquiet.pend
  exact ⟨u, hu, fun more out rest => by rw [runBlocks, hcheck, hread]⟩

end

/-- The sequencer state of a message in direction `d` (R224, R225). -/
def messageFsm : Direction → Fsm
  | .enc => .msgEnc
  | .dec => .msgDec

theorem messageFsm_inMessage (d : Direction) : messageFsm d = .msgEnc ∨ messageFsm d = .msgDec := by
  cases d <;> decide

/-- A message in direction `d` under `key` is in progress with `n` blocks to come, and the key registers are clear (R241, R245). -/
structure InMessage (d : Direction) (key : Block) (events : List Event) (n : Nat) (s : State) : Prop where
  quiet : Quiet events s
  fsm : s.fsm = messageFsm d
  rk : s.rk = keyExpansion key
  key : s.key = Quad.const 0x00000000#32
  count : s.blkidx.toNat + n = s.msgCnt.toNat

/-- A message has ended: no schedule, no key (R226, R245). -/
structure MessageEnded (events : List Event) (s : State) : Prop where
  quiet : Quiet events s
  fsm : s.fsm = .idle
  rk : s.rk = Schedule.zero
  key : s.key = Quad.const 0x00000000#32

section

variable {d : Direction} {key : Block} {events : List Event} {n : Nat} {s t : State}

theorem InMessage.of_sameButBus (h : InMessage d key events n s) (hs : SameButBus s t) : InMessage d key events n t := by
  have hquiet := h.quiet.of_sameButBus hs
  obtain ⟨w, r, rfl⟩ := hs
  exact ⟨hquiet, h.fsm, h.rk, h.key, h.count⟩

theorem MessageEnded.of_sameButBus (h : MessageEnded events s) (hs : SameButBus s t) : MessageEnded events t := by
  have hquiet := h.quiet.of_sameButBus hs
  obtain ⟨w, r, rfl⟩ := hs
  exact ⟨hquiet, h.fsm, h.rk, h.key⟩

/-- MSG_NEXT puts the cipher of the block into DOUT (R226). -/
theorem InMessage.completed_dout (h : InMessage d key events n s) (b : Block) :
    blockOf (completed .msgNext (withDin b s)).dout = directedCipher d b (keyExpansion key) := by
  have hdin : (latch .msgNext (withDin b s)).ldin = b := blockOf_wordsOf b
  rw [completed, finish_dout, ownCompletion_dout, blockOf_wordsOf, msgNextOutput, hdin]
  have hfsm : (ownAcceptance .msgNext (acceptCommon .msgNext (withDin b s))).fsm = messageFsm d := h.fsm
  have hrk : (ownAcceptance .msgNext (acceptCommon .msgNext (withDin b s))).rk = keyExpansion key := h.rk
  rw [hfsm, hrk]
  cases d <;> rfl

/-- MSG_NEXT with more blocks to come counts one (R226). -/
theorem InMessage.completed_more (h : InMessage d key events (n + 2) s) (b : Block) :
    InMessage d key events (n + 1) (completed .msgNext (withDin b s)) := by
  have hquiet := (h.quiet.loadDin b).command .msgNext
  obtain ⟨-, hfsm, hrk, hkey, hcount⟩ := h
  have hnext : (s.blkidx + 1#16).toNat = s.blkidx.toNat + 1 := by bv_omega
  have hne : s.blkidx + 1#16 ≠ s.msgCnt := fun heq => by rw [← heq] at hcount; omega
  have hmore := completeMsgNext_more (p := latch .msgNext (withDin b s)) (s := acceptCommon .msgNext (withDin b s)) hne
  rw [show completed .msgNext (withDin b s) = _ from congrArg finish hmore] at hquiet ⊢
  refine ⟨hquiet, hfsm, hrk, hkey, ?_⟩
  show (s.blkidx + 1#16).toNat + (n + 1) = s.msgCnt.toNat
  omega

/-- MSG_NEXT at the last block ends the message (R226). -/
theorem InMessage.completed_last (h : InMessage d key events 1 s) (b : Block) :
    MessageEnded events (completed .msgNext (withDin b s)) := by
  have hquiet := (h.quiet.loadDin b).command .msgNext
  obtain ⟨-, -, -, hkey, hcount⟩ := h
  have hlast : s.blkidx + 1#16 = s.msgCnt := by bv_omega
  have hend := completeMsgNext_last (p := latch .msgNext (withDin b s)) (s := acceptCommon .msgNext (withDin b s)) hlast
  rw [show completed .msgNext (withDin b s) = _ from congrArg finish hend] at hquiet ⊢
  exact ⟨hquiet, rfl, rfl, hkey⟩

/-- The blocks of a message, to its end. -/
theorem runBlocks_msgNext {bs : List Block} (hne : bs ≠ []) (h : InMessage d key events bs.length s) :
    ∃ t, MessageEnded events t ∧
      ∀ out rest, runBlocks .msgNext bs out s rest = rest (out ++ ecbRun d key bs) t := by
  induction bs generalizing s with
  | nil => exact absurd rfl hne
  | cons b more ih =>
    have hlegal : stateError .msgNext s.fsm = none := stateError_msgNext_legal (h.fsm ▸ messageFsm_inMessage d)
    obtain ⟨u, hu, hpass⟩ := runBlocks_cons h.quiet rfl hlegal b
    rw [h.completed_dout b] at hpass
    cases more with
    | nil => exact ⟨u, (h.completed_last b).of_sameButBus hu, fun out rest => hpass [] out rest⟩
    | cons b' more =>
      obtain ⟨t, ht, hrest⟩ := ih (List.cons_ne_nil _ _) ((h.completed_more b).of_sameButBus hu)
      exact ⟨t, ht, fun out rest => by rw [hpass, hrest, List.append_assoc]; rfl⟩

/-- A message start opens the message that its key and BLKCNT announce, and clears the key registers (R224, R225, R245). -/
theorem Quiet.completed_startCommand (h : Quiet events s) (d : Direction) :
    InMessage d (keyBlock s) events s.blkcnt.toNat (completed (startCommand d) s) := by
  have hquiet := h.command (startCommand d)
  cases d <;> exact ⟨hquiet, rfl, rfl, rfl, Nat.zero_add _⟩

/-- A message start with its key and count just written is accepted outside a message (R211, R214). -/
theorem firstRefusal_startCommand (h : Quiet events s) (hf : s.fsm = .idle ∨ s.fsm = .ready) (d : Direction) {v : Word}
    (hv : v.extractLsb' 0 16 ≠ 0#16) (key : Block) :
    firstRefusal (startCommand d) (withBlkcnt v (withKey key s)) = none := by
  refine (firstRefusal_none_iff _ _).2 ⟨h.pend, ?_, fun _ => rfl, ?_, fun _ => hv⟩
  · exact stateError_needsKey (by cases d <;> rfl) hf
  · cases d <;> exact nofun

/-- BLKCNT holds every count up to 65535 (R37). -/
theorem blkcnt_toNat {n : Nat} (h : n ≤ 65535) : ((BitVec.ofNat 32 n).extractLsb' 0 16).toNat = n := by
  rw [BitVec.extractLsb'_toNat, BitVec.toNat_ofNat, Nat.shiftRight_zero]
  omega

/-- One message of the message-mode driver (R280). -/
theorem runMessages_cons {run : List Block} (h : Quiet events s) (hf : s.fsm = .idle ∨ s.fsm = .ready) (d : Direction)
    (key : Block) (hne : run ≠ []) (hlen : run.length ≤ 65535) :
    ∃ t, MessageEnded events t ∧
      ∀ more out, runMessages d key (run :: more) out s = runMessages d key more (out ++ ecbRun d key run) t := by
  have hcount := blkcnt_toNat hlen
  have hpos : (BitVec.ofNat 32 run.length).extractLsb' 0 16 ≠ 0#16 := fun h0 => by
    rw [h0] at hcount
    exact hne (List.length_eq_zero_iff.1 hcount.symm)
  have hopen := ((h.loadKey key).loadBlkcnt (BitVec.ofNat 32 run.length)).completed_startCommand d
  rw [show keyBlock (withBlkcnt _ (withKey key s)) = key from blockOf_wordsOf key,
    show (withBlkcnt _ (withKey key s)).blkcnt.toNat = run.length from hcount] at hopen
  have hrun := runCommand_eq (perform_blkcnt (BitVec.ofNat 32 run.length) (perform_ldkey key (.refl s) h.pend) h.pend)
    (firstRefusal_startCommand h hf d hpos key)
  obtain ⟨u, hu, hcheck⟩ := checked_eq hrun hopen.quiet.pend hopen.quiet.err
  obtain ⟨t, ht, hblocks⟩ := runBlocks_msgNext hne (hopen.of_sameButBus hu)
  exact ⟨t, ht, fun more out => by rw [runMessages, hcheck, hblocks]⟩

theorem ecbRun_append (d : Direction) (key : Block) (bs bs' : List Block) :
    ecbRun d key (bs ++ bs') = ecbRun d key bs ++ ecbRun d key bs' := List.map_append

/-- The messages of the driver, each begun where the one before has ended. -/
theorem runMessages_eq (h : MessageEnded events s) (d : Direction) (key : Block) {runs : List (List Block)}
    (hruns : ∀ run ∈ runs, run ≠ [] ∧ run.length ≤ 65535) (out : List Block) :
    ∃ t, MessageEnded events t ∧ runMessages d key runs out s = .done (out ++ ecbRun d key runs.flatten) t := by
  induction runs generalizing s out with
  | nil => exact ⟨s, h, by rw [runMessages, List.flatten_nil, ecbRun, List.map_nil, List.append_nil]⟩
  | cons run more ih =>
    obtain ⟨⟨hne, hlen⟩, hmore⟩ := List.forall_mem_cons.1 hruns
    obtain ⟨u, hu, hmsg⟩ := runMessages_cons h.quiet (.inl h.fsm) d key hne hlen
    obtain ⟨t, ht, hrest⟩ := ih hu hmore (out ++ ecbRun d key run)
    exact ⟨t, ht, by rw [hmsg, hrest, List.flatten_cons, ecbRun_append, List.append_assoc]⟩

end

/-- Every run has a block and at most 65535 (R280). -/
theorem mem_blockRuns {n : Nat} {bs run : List Block} (h : run ∈ blockRuns n bs) : run ≠ [] ∧ run.length ≤ 65535 := by
  induction n generalizing bs with
  | zero => cases h
  | succ n ih =>
    cases bs with
    | nil => cases h
    | cons b more =>
      rcases List.mem_cons.1 h with rfl | h
      · exact ⟨by simp, List.length_take_le _ _⟩
      · exact ih h

/-- The runs are the blocks in order (R280). -/
theorem flatten_blockRuns {n : Nat} {bs : List Block} (h : bs.length ≤ n) : (blockRuns n bs).flatten = bs := by
  induction n generalizing bs with
  | zero => rw [List.length_eq_zero_iff.1 (Nat.le_zero.1 h)]; rfl
  | succ n ih =>
    cases bs with
    | nil => rfl
    | cons b more =>
      have hdrop : ((b :: more).drop 65535).length ≤ n := by rw [List.length_drop]; omega
      rw [blockRuns, List.flatten_cons, ih hdrop, List.take_append_drop]

/-- Settles O51: the first message begins outside a message, each later one where the one before has ended. -/
theorem messageDriverComputesEcb : Obligations.MessageDriverComputesEcb := by
  intro d key bs s hne hp he hf
  have hflat := flatten_blockRuns (Nat.le_refl bs.length)
  have hruns (run : List Block) (hrun : run ∈ blockRuns bs.length bs) := mem_blockRuns hrun
  rw [ecbRunMsg]
  generalize blockRuns bs.length bs = runs at hflat hruns
  cases runs with
  | nil => exact absurd hflat.symm hne
  | cons run more =>
    obtain ⟨⟨hrun, hlen⟩, hmore⟩ := List.forall_mem_cons.1 hruns
    obtain ⟨u, hu, hfirst⟩ := runMessages_cons ⟨hp, he, rfl⟩ hf d key hrun hlen
    obtain ⟨t, ht, hrest⟩ := runMessages_eq hu d key hmore (ecbRun d key run)
    refine ⟨t, ?_, ht.fsm, ht.rk, ht.quiet.pend, ht.key, ht.quiet.err, ht.quiet.script⟩
    rw [hfirst, List.nil_append, hrest, ← ecbRun_append, ← List.flatten_cons, hflat, ecbRun]

/-- The schedule of `key` stands in RK, in block mode (R221). -/
structure Expanded (key : Block) (events : List Event) (s : State) : Prop where
  quiet : Quiet events s
  fsm : s.fsm = .ready
  rk : s.rk = keyExpansion key

section

variable {key : Block} {events : List Event} {s t : State}

theorem Expanded.of_sameButBus (h : Expanded key events s) (hs : SameButBus s t) : Expanded key events t := by
  have hquiet := h.quiet.of_sameButBus hs
  obtain ⟨w, r, rfl⟩ := hs
  exact ⟨hquiet, h.fsm, h.rk⟩

/-- EXPAND_KEY with its key just written (R221). -/
theorem Quiet.completed_expandKey (h : Quiet events s) (key : Block) :
    Expanded key events (completed .expandKey (withKey key s)) :=
  ⟨(h.loadKey key).command .expandKey, rfl, congrArg keyExpansion (blockOf_wordsOf key)⟩

theorem isBlockCommand_blockCommand (d : Direction) : IsBlockCommand (blockCommand d) := by cases d <;> decide

/-- A block command puts the cipher of the block under the schedule into DOUT (R222, R223). -/
theorem completed_blockCommand_dout (d : Direction) (b : Block) (s : State) :
    blockOf (completed (blockCommand d) (withDin b s)).dout = directedCipher d b s.rk := by
  have hdin : dinBlock (withDin b s) = b := blockOf_wordsOf b
  cases d with
  | enc => exact (blockOf_wordsOf _).trans (congrArg (cipher · s.rk) hdin)
  | dec => exact (blockOf_wordsOf _).trans (congrArg (invCipher · s.rk) hdin)

/-- A block command leaves the schedule (R222, R223). -/
theorem Expanded.completed_blockCommand (h : Expanded key events s) (d : Direction) (b : Block) :
    Expanded key events (completed (blockCommand d) (withDin b s)) := by
  have hquiet := (h.quiet.loadDin b).command (blockCommand d)
  cases d <;> exact ⟨hquiet, h.fsm, h.rk⟩

/-- The blocks of the block-mode driver. -/
theorem runBlocks_blockCommand (h : Expanded key events s) (d : Direction) (bs : List Block) :
    ∃ t, Expanded key events t ∧
      ∀ out rest, runBlocks (blockCommand d) bs out s rest = rest (out ++ ecbRun d key bs) t := by
  induction bs generalizing s with
  | nil => exact ⟨s, h, fun out rest => by rw [runBlocks, ecbRun, List.map_nil, List.append_nil]⟩
  | cons b more ih =>
    have hblock := isBlockCommand_blockCommand d
    obtain ⟨u, hu, hpass⟩ :=
      runBlocks_cons h.quiet (needsDin_blockCommand hblock) (stateError_blockCommand hblock h.fsm) b
    rw [completed_blockCommand_dout, h.rk] at hpass
    obtain ⟨t, ht, hrest⟩ := ih ((h.completed_blockCommand d b).of_sameButBus hu)
    exact ⟨t, ht, fun out rest => by rw [hpass, hrest, List.append_assoc]; rfl⟩

end

/-- Settles O52: EXPAND_KEY gives the schedule, every block command keeps it, ZEROIZE ends it. -/
theorem blockDriverComputesEcb : Obligations.BlockDriverComputesEcb := by
  intro d key bs s hp he hf
  have hexp := Quiet.completed_expandKey ⟨hp, he, rfl⟩ key
  have hlegal : firstRefusal .expandKey (withKey key s) = none :=
    (firstRefusal_none_iff _ _).2 ⟨hp, stateError_needsKey rfl hf, fun _ => rfl, nofun, nofun⟩
  obtain ⟨u, hu, hcheck⟩ := checked_eq (runCommand_eq (perform_ldkey key (.refl s) hp) hlegal) hexp.quiet.pend hexp.quiet.err
  obtain ⟨v, hv, hblocks⟩ := runBlocks_blockCommand (hexp.of_sameButBus hu) d bs
  have hzeroize : firstRefusal .zeroize v = none :=
    (firstRefusal_none_iff _ _).2 ⟨hv.quiet.pend, rfl, nofun, nofun, nofun⟩
  have hend := runCommand_eq (.refl v) hzeroize
  have hquiet := (hv.quiet.command .zeroize).of_sameButBus hend
  refine ⟨runCommand .zeroize v, ?_, ?_⟩
  · rw [ecbRunBlk, hcheck, hblocks, List.nil_append, ecbRun]
  · obtain ⟨w, r, heq⟩ := hend
    rw [heq] at hquiet ⊢
    exact ⟨rfl, rfl, rfl, rfl, rfl, rfl, hquiet.err, hquiet.script⟩

end Sys2Proof.Machine
end

/-! ### Family 44_host_framing, padding and Base64

Reading a Base64 text undoes writing it (`base64Read_base64Encode`), and a text that is read is the text of what was read
(`base64Encode_of_base64Read`), because the bits that hold no byte must be zero. -/
section

namespace Sys2Proof.Machine

/-- A byte given by its number has that number. -/
theorem toNat_byte {n : Nat} (h : n < 256) : (BitVec.ofNat 8 n).toNat = n :=
  Nat.mod_eq_of_lt h

theorem padCount_bounds (x : ByteString) : 1 ≤ padCount x ∧ padCount x ≤ 16 := by
  unfold padCount
  omega

theorem pad_length (x : ByteString) : (pad x).length = x.length + padCount x := by
  rw [pad, List.length_append, List.length_replicate]

/-- The last byte of a padded string is the count of its padding bytes (R272). -/
theorem pad_getLast? (x : ByteString) : (pad x).getLast? = some (BitVec.ofNat 8 (padCount x)) := by
  obtain ⟨hpos, -⟩ := padCount_bounds x
  rw [pad, List.getLast?_append, List.getLast?_replicate, if_neg (by omega)]
  rfl

/-- The padding comes off as it went on (R273). -/
theorem unpad_pad (x : ByteString) : unpad (pad x) = .ok x := by
  obtain ⟨hpos, hle⟩ := padCount_bounds x
  have hlast : (BitVec.ofNat 8 (padCount x)).toNat = padCount x := toNat_byte (by omega)
  have hlen : (pad x).length - padCount x = x.length := by rw [pad_length, Nat.add_sub_cancel]
  have hfits : ¬ (padCount x < 1 ∨ 16 < padCount x ∨ (pad x).length < padCount x) := by rw [pad_length]; omega
  have hall : (((pad x).drop x.length).all (· == BitVec.ofNat 8 (padCount x))) = true := by
    rw [pad, List.drop_left, List.all_replicate, beq_self_eq_true, ite_self]
  rw [unpad, pad_getLast?]
  simp only [hlast, hlen, if_neg hfits, hall, if_true]
  rw [pad, List.take_left]

/-- Settles O53: padding adds what is missing to the next multiple of 16, a whole block where nothing is. -/
theorem paddingIsUndoneAndFillsBlocks : Obligations.PaddingIsUndoneAndFillsBlocks := by
  intro x
  rw [pad_length]
  refine ⟨?_, ?_, ?_, ?_, unpad_pad x⟩ <;> unfold padCount <;> omega

/-! A Base64 character and its value determine each other (R271). -/

theorem base64Value_base64Char {v : Nat} (h : v < 64) : base64Value (base64Char v) = some v := by
  revert v; decide

theorem eq_base64Char_of_base64Value {c : Char} {v : Nat} (h : base64Value c = some v) : v < 64 ∧ c = base64Char v := by
  have hc : Char.ofNat c.toNat = c := Char.ofNat_toNat c
  unfold base64Value at h
  generalize hn : c.toNat = n at h hc
  simp only at h
  split_ifs at h with hu hl hd hp hs
  · cases h
    exact ⟨by omega, by rw [base64Char, if_pos (by omega), ← hc]; congr 1; omega⟩
  · cases h
    exact ⟨by omega, by rw [base64Char, if_neg (by omega), if_pos (by omega), ← hc]; congr 1; omega⟩
  · cases h
    exact ⟨by omega, by rw [base64Char, if_neg (by omega), if_neg (by omega), if_pos (by omega), ← hc]; congr 1; omega⟩
  · cases h; exact ⟨by decide, hp⟩
  · cases h; exact ⟨by decide, hs⟩

theorem base64Value_padding : base64Value '=' = none := by decide

/-- The text of a byte string is read back: a group's values hold its bytes, the last group's unused bits are zero (R271). -/
theorem base64Read_base64Encode (x : ByteString) : base64Read (base64Encode x) = some x := by
  induction x using base64Encode.induct with
  | case1 => rfl
  | case2 a =>
    have h0 := base64Value_base64Char (v := a.toNat / 4) (by omega)
    have h1 := base64Value_base64Char (v := a.toNat % 4 * 16) (by omega)
    have ha : BitVec.ofNat 8 (a.toNat / 4 * 4 + a.toNat % 4 * 16 / 16) = a := by bv_omega
    have hlow : a.toNat % 4 * 16 % 16 = 0 := Nat.mul_mod_left _ _
    simp only [base64Encode, base64Read, h0, h1, base64Value_padding, ha, hlow, and_self, if_true]
  | case3 a b =>
    have h0 := base64Value_base64Char (v := a.toNat / 4) (by omega)
    have h1 := base64Value_base64Char (v := a.toNat % 4 * 16 + b.toNat / 16) (by omega)
    have h2 := base64Value_base64Char (v := b.toNat % 16 * 4) (by omega)
    have ha : BitVec.ofNat 8 (a.toNat / 4 * 4 + (a.toNat % 4 * 16 + b.toNat / 16) / 16) = a := by bv_omega
    have hb : BitVec.ofNat 8 ((a.toNat % 4 * 16 + b.toNat / 16) % 16 * 16 + b.toNat % 16 * 4 / 4) = b := by bv_omega
    have hlow : b.toNat % 16 * 4 % 4 = 0 := Nat.mul_mod_left _ _
    simp only [base64Encode, base64Read, h0, h1, h2, base64Value_padding, ha, hb, hlow, and_self, if_true]
  | case4 a b c rest ih =>
    have h0 := base64Value_base64Char (v := a.toNat / 4) (by omega)
    have h1 := base64Value_base64Char (v := a.toNat % 4 * 16 + b.toNat / 16) (by omega)
    have h2 := base64Value_base64Char (v := b.toNat % 16 * 4 + c.toNat / 64) (by omega)
    have h3 := base64Value_base64Char (v := c.toNat % 64) (by omega)
    have ha : BitVec.ofNat 8 (a.toNat / 4 * 4 + (a.toNat % 4 * 16 + b.toNat / 16) / 16) = a := by bv_omega
    have hb : BitVec.ofNat 8 ((a.toNat % 4 * 16 + b.toNat / 16) % 16 * 16 + (b.toNat % 16 * 4 + c.toNat / 64) / 4) = b := by
      bv_omega
    have hc : BitVec.ofNat 8 ((b.toNat % 16 * 4 + c.toNat / 64) % 4 * 64 + c.toNat % 64) = c := by bv_omega
    simp only [base64Encode, base64Read, h0, h1, h2, h3, ih, ha, hb, hc, Option.map_some]

/-! Bytes read from the values of a group are written as that group again (R271). -/

theorem base64Encode_group {v0 v1 v2 v3 : Nat} (h0 : v0 < 64) (h1 : v1 < 64) (h2 : v2 < 64) (h3 : v3 < 64) (x : ByteString) :
    base64Encode (BitVec.ofNat 8 (v0 * 4 + v1 / 16) :: BitVec.ofNat 8 (v1 % 16 * 16 + v2 / 4) ::
        BitVec.ofNat 8 (v2 % 4 * 64 + v3) :: x) =
      base64Char v0 :: base64Char v1 :: base64Char v2 :: base64Char v3 :: base64Encode x := by
  have ha : (BitVec.ofNat 8 (v0 * 4 + v1 / 16)).toNat = v0 * 4 + v1 / 16 := toNat_byte (by omega)
  have hb : (BitVec.ofNat 8 (v1 % 16 * 16 + v2 / 4)).toNat = v1 % 16 * 16 + v2 / 4 := toNat_byte (by omega)
  have hc : (BitVec.ofNat 8 (v2 % 4 * 64 + v3)).toNat = v2 % 4 * 64 + v3 := toNat_byte (by omega)
  rw [base64Encode, ha, hb, hc]
  congr! <;> omega

theorem base64Encode_two {v0 v1 v2 : Nat} (h0 : v0 < 64) (h1 : v1 < 64) (h2 : v2 < 64) (hlow : v2 % 4 = 0) :
    base64Encode [BitVec.ofNat 8 (v0 * 4 + v1 / 16), BitVec.ofNat 8 (v1 % 16 * 16 + v2 / 4)] =
      [base64Char v0, base64Char v1, base64Char v2, '='] := by
  have ha : (BitVec.ofNat 8 (v0 * 4 + v1 / 16)).toNat = v0 * 4 + v1 / 16 := toNat_byte (by omega)
  have hb : (BitVec.ofNat 8 (v1 % 16 * 16 + v2 / 4)).toNat = v1 % 16 * 16 + v2 / 4 := toNat_byte (by omega)
  rw [base64Encode, ha, hb]
  congr! <;> omega

theorem base64Encode_one {v0 v1 : Nat} (h0 : v0 < 64) (h1 : v1 < 64) (hlow : v1 % 16 = 0) :
    base64Encode [BitVec.ofNat 8 (v0 * 4 + v1 / 16)] = [base64Char v0, base64Char v1, '=', '='] := by
  have ha : (BitVec.ofNat 8 (v0 * 4 + v1 / 16)).toNat = v0 * 4 + v1 / 16 := toNat_byte (by omega)
  rw [base64Encode, ha]
  congr! <;> omega

/-- A text that is read is the text of what is read: its unused bits are zero, so nothing is lost (R271). -/
theorem base64Encode_of_base64Read {t : Text} {x : ByteString} (h : base64Read t = some x) : t = base64Encode x := by
  induction t using base64Read.induct generalizing x with
  | case1 => cases h; rfl
  | case2 c0 c1 c2 c3 rest v0 v1 v2 v3 h3 h2 h1 h0 ih =>
    simp only [base64Read, h0, h1, h2, h3, Option.map_eq_some_iff] at h
    obtain ⟨y, hy, rfl⟩ := h
    obtain ⟨hv0, rfl⟩ := eq_base64Char_of_base64Value h0
    obtain ⟨hv1, rfl⟩ := eq_base64Char_of_base64Value h1
    obtain ⟨hv2, rfl⟩ := eq_base64Char_of_base64Value h2
    obtain ⟨hv3, rfl⟩ := eq_base64Char_of_base64Value h3
    rw [base64Encode_group hv0 hv1 hv2 hv3, ih hy]
  | case3 c0 c1 c2 c3 rest v0 v1 v2 h3 h2 h1 h0 hpad =>
    simp only [base64Read, h0, h1, h2, h3, if_pos hpad] at h
    obtain ⟨rfl, rfl, hlow⟩ := hpad
    cases h
    obtain ⟨hv0, rfl⟩ := eq_base64Char_of_base64Value h0
    obtain ⟨hv1, rfl⟩ := eq_base64Char_of_base64Value h1
    obtain ⟨hv2, rfl⟩ := eq_base64Char_of_base64Value h2
    rw [base64Encode_two hv0 hv1 hv2 hlow]
  | case5 c0 c1 c2 c3 rest v0 v1 h3 h2 h1 h0 hpad =>
    simp only [base64Read, h0, h1, h2, h3, if_pos hpad] at h
    obtain ⟨rfl, rfl, rfl, hlow⟩ := hpad
    cases h
    obtain ⟨hv0, rfl⟩ := eq_base64Char_of_base64Value h0
    obtain ⟨hv1, rfl⟩ := eq_base64Char_of_base64Value h1
    rw [base64Encode_one hv0 hv1 hlow]
  | case4 c0 c1 c2 c3 rest v0 v1 v2 h3 h2 h1 h0 hpad => simp [base64Read, h0, h1, h2, h3, hpad] at h
  | case6 c0 c1 c2 c3 rest v0 v1 h3 h2 h1 h0 hpad => simp [base64Read, h0, h1, h2, h3, hpad] at h
  | case7 c0 c1 c2 c3 rest h4 h3 h2 =>
    rw [base64Read] at h
    split at h
    · exact (h4 _ _ _ _ ‹_› ‹_› ‹_› ‹_›).elim
    · exact (h3 _ _ _ ‹_› ‹_› ‹_› ‹_›).elim
    · exact (h2 _ _ ‹_› ‹_› ‹_› ‹_›).elim
    · cases h
  | case8 t h0 h4 => rw [base64Read] at h; cases h; all_goals assumption

theorem base64Read_eq_some_iff {t : Text} {x : ByteString} : base64Read t = some x ↔ t = base64Encode x :=
  ⟨base64Encode_of_base64Read, fun h => h ▸ base64Read_base64Encode x⟩

theorem base64Decode_eq_ok_iff (t : Text) (x : ByteString) : base64Decode t = .ok x ↔ t = base64Encode x := by
  rw [← base64Read_eq_some_iff, base64Decode]
  cases base64Read t <;> simp

/-- Settles O54: decoding answers exactly the encodings; what it does not answer is a DecodingError. -/
theorem base64AcceptsExactlyItsEncodings : Obligations.Base64AcceptsExactlyItsEncodings := by
  refine ⟨base64Decode_eq_ok_iff, fun t h => ?_⟩
  cases hr : base64Read t with
  | none => rw [base64Decode, hr]
  | some x => exact absurd (base64Read_eq_some_iff.1 hr) (h x)

end Sys2Proof.Machine
end

/-! ### Family 44_host_framing, UTF-8

A scalar value and its bytes determine each other: reading undoes writing (`utf8Read_utf8Char`), and what is read begins with the
bytes of the scalar value read first (`utf8Read_cons_eq_some`). -/
section

namespace Sys2Proof.Machine

/-- A scalar value is found exactly where its own number stands and the form is the shortest (R270). -/
theorem scalarFrom_eq_some_iff {least n : Nat} {c : Char} : scalarFrom least n = some c ↔ least ≤ n ∧ c.toNat = n := by
  unfold scalarFrom
  constructor
  · intro h
    split_ifs at h with hn
    obtain ⟨hle, hvalid⟩ := hn
    cases h
    exact ⟨hle, by rw [Char.toNat_ofNat, if_pos hvalid]⟩
  · rintro ⟨hle, rfl⟩
    rw [if_pos ⟨hle, c.valid⟩, Char.ofNat_toNat]

/-- The continuation bytes are `10xxxxxx` (R270). -/
theorem contBits_eq_some_iff {b : Byte} {m : Nat} : contBits b = some m ↔ m < 64 ∧ b = BitVec.ofNat 8 (0x80 + m) := by
  unfold contBits
  constructor
  · intro h
    split_ifs at h with hb
    cases h
    exact ⟨Nat.mod_lt _ (by decide), by bv_omega⟩
  · rintro ⟨hm, rfl⟩
    have hb : (BitVec.ofNat 8 (0x80 + m)).toNat = 0x80 + m := toNat_byte (by omega)
    rw [hb, if_pos (by omega)]
    congr 1
    omega

theorem contBits_continuation (n : Nat) : contBits (BitVec.ofNat 8 (0x80 + n % 64)) = some (n % 64) :=
  contBits_eq_some_iff.2 ⟨Nat.mod_lt _ (by decide), rfl⟩

/-- Reading undoes writing, scalar value by scalar value (R270). -/
theorem utf8Read_utf8Char (c : Char) (y : ByteString) : utf8Read (utf8Char c ++ y) = (utf8Read y).map (c :: ·) := by
  have hlt : c.toNat ≤ 0x10FFFF := Char.toNat_le_max c
  have hc : Char.ofNat c.toNat = c := Char.ofNat_toNat c
  have hscalar {least n : Nat} (hle : least ≤ n) (hn : c.toNat = n) : scalarFrom least n = some c :=
    scalarFrom_eq_some_iff.2 ⟨hle, hn⟩
  unfold utf8Char
  generalize c.toNat = n at hlt hc hscalar
  simp only
  split_ifs with h1 h2 h3
  · rw [List.singleton_append, utf8Read.eq_def]
    simp only [toNat_byte (n := n) (by omega), if_pos h1, hc]
  · have hlead := toNat_byte (n := 0xC0 + n / 64) (by omega)
    rw [List.cons_append, List.singleton_append, utf8Read.eq_def]
    simp only [hlead, contBits_continuation]
    rw [if_neg (by omega), if_pos (by omega), hscalar (by omega) (by omega)]
  · have hlead := toNat_byte (n := 0xE0 + n / 4096) (by omega)
    rw [List.cons_append, List.cons_append, List.singleton_append, utf8Read.eq_def]
    simp only [hlead, contBits_continuation]
    rw [if_neg (by omega), if_neg (by omega), if_pos (by omega), hscalar (by omega) (by omega)]
  · have hlead := toNat_byte (n := 0xF0 + n / 262144) (by omega)
    rw [List.cons_append, List.cons_append, List.cons_append, List.singleton_append, utf8Read.eq_def]
    simp only [hlead, contBits_continuation]
    rw [if_neg (by omega), if_neg (by omega), if_neg (by omega), if_pos (by omega), hscalar (by omega) (by omega)]

theorem utf8Encode_cons (c : Char) (t : Text) : utf8Encode (c :: t) = utf8Char c ++ utf8Encode t :=
  List.flatMap_cons

theorem utf8Read_utf8Encode (t : Text) : utf8Read (utf8Encode t) = some t := by
  induction t with
  | nil => rfl
  | cons c t ih => rw [utf8Encode_cons, utf8Read_utf8Char, ih, Option.map_some]

/-! Bytes of the form of a scalar value are its bytes, one lemma for each length (R270). -/

section

variable {b0 b1 b2 b3 : Byte} {n1 n2 n3 : Nat} {c : Char}

theorem utf8Char_one (h0 : b0.toNat < 0x80) : utf8Char (Char.ofNat b0.toNat) = [b0] := by
  have hvalid : b0.toNat.isValidChar := .inl (by omega)
  have hn : (Char.ofNat b0.toNat).toNat = b0.toNat := by rw [Char.toNat_ofNat, if_pos hvalid]
  unfold utf8Char
  simp only [hn, if_pos h0, BitVec.ofNat_toNat, BitVec.setWidth_eq]

theorem utf8Char_two (h0 : 0xC0 ≤ b0.toNat ∧ b0.toNat < 0xE0) (h1 : contBits b1 = some n1)
    (hc : scalarFrom 0x80 (b0.toNat % 32 * 64 + n1) = some c) : utf8Char c = [b0, b1] := by
  obtain ⟨hn1, rfl⟩ := contBits_eq_some_iff.1 h1
  obtain ⟨hleast, hn⟩ := scalarFrom_eq_some_iff.1 hc
  unfold utf8Char
  simp only
  rw [if_neg (by omega), if_pos (by omega)]
  congr! <;> bv_omega

theorem utf8Char_three (h0 : 0xE0 ≤ b0.toNat ∧ b0.toNat < 0xF0) (h1 : contBits b1 = some n1) (h2 : contBits b2 = some n2)
    (hc : scalarFrom 0x800 (b0.toNat % 16 * 4096 + n1 * 64 + n2) = some c) : utf8Char c = [b0, b1, b2] := by
  obtain ⟨hn1, rfl⟩ := contBits_eq_some_iff.1 h1
  obtain ⟨hn2, rfl⟩ := contBits_eq_some_iff.1 h2
  obtain ⟨hleast, hn⟩ := scalarFrom_eq_some_iff.1 hc
  unfold utf8Char
  simp only
  rw [if_neg (by omega), if_neg (by omega), if_pos (by omega)]
  congr! <;> bv_omega

theorem utf8Char_four (h0 : 0xF0 ≤ b0.toNat ∧ b0.toNat < 0xF8) (h1 : contBits b1 = some n1) (h2 : contBits b2 = some n2)
    (h3 : contBits b3 = some n3) (hc : scalarFrom 0x10000 (b0.toNat % 8 * 262144 + n1 * 4096 + n2 * 64 + n3) = some c) :
    utf8Char c = [b0, b1, b2, b3] := by
  obtain ⟨hn1, rfl⟩ := contBits_eq_some_iff.1 h1
  obtain ⟨hn2, rfl⟩ := contBits_eq_some_iff.1 h2
  obtain ⟨hn3, rfl⟩ := contBits_eq_some_iff.1 h3
  obtain ⟨hleast, hn⟩ := scalarFrom_eq_some_iff.1 hc
  unfold utf8Char
  simp only
  rw [if_neg (by omega), if_neg (by omega), if_neg (by omega)]
  congr! <;> bv_omega

end

/-- What is read begins with the bytes of a scalar value, and the rest is read on (R270). -/
theorem utf8Read_cons_eq_some {b0 : Byte} {rest : ByteString} {t : Text} (h : utf8Read (b0 :: rest) = some t) :
    ∃ c y t', b0 :: rest = utf8Char c ++ y ∧ utf8Read y = some t' ∧ t = c :: t' := by
  have hmap {c : Char} {y : ByteString} (hy : (utf8Read y).map (c :: ·) = some t) (hx : b0 :: rest = utf8Char c ++ y) :
      ∃ c y t', b0 :: rest = utf8Char c ++ y ∧ utf8Read y = some t' ∧ t = c :: t' := by
    obtain ⟨t', ht', rfl⟩ := Option.map_eq_some_iff.1 hy
    exact ⟨c, y, t', hx, ht', rfl⟩
  rw [utf8Read.eq_def] at h
  simp only at h
  split at h
  next h0 => exact hmap h (by rw [utf8Char_one h0]; rfl)
  next =>
    split at h
    next => cases h
    next b1 rest1 =>
    split at h
    next => cases h
    next n1 h1 =>
    split at h
    next h0 =>
      split at h
      next => cases h
      next c hc => exact hmap h (by rw [utf8Char_two h0 h1 hc]; rfl)
    next =>
    split at h
    next => cases h
    next b2 rest2 =>
    split at h
    next => cases h
    next n2 h2 =>
    split at h
    next h0 =>
      split at h
      next => cases h
      next c hc => exact hmap h (by rw [utf8Char_three h0 h1 h2 hc]; rfl)
    next =>
    split at h
    next => cases h
    next b3 rest3 =>
    split at h
    next => cases h
    next n3 h3 =>
    split at h
    next h0 =>
      split at h
      next => cases h
      next c hc => exact hmap h (by rw [utf8Char_four h0 h1 h2 h3 hc]; rfl)
    next => cases h

theorem utf8Char_ne_nil (c : Char) : utf8Char c ≠ [] := by
  unfold utf8Char
  simp only
  split_ifs <;> simp

/-- A string that is read is the encoding of what is read, by induction on its length (R270). -/
theorem utf8Encode_of_utf8Read {x : ByteString} {t : Text} (h : utf8Read x = some t) : x = utf8Encode t := by
  induction hn : x.length using Nat.strong_induction_on generalizing x t with
  | _ n ih =>
    cases x with
    | nil => cases h; rfl
    | cons b rest =>
      obtain ⟨c, y, t', hx, hy, rfl⟩ := utf8Read_cons_eq_some h
      have hshorter : y.length < n := by
        have hpos := List.length_pos_iff.2 (utf8Char_ne_nil c)
        rw [← hn, hx, List.length_append]
        omega
      rw [hx, ih _ hshorter hy rfl, utf8Encode_cons]

theorem utf8Read_eq_some_iff {x : ByteString} {t : Text} : utf8Read x = some t ↔ x = utf8Encode t :=
  ⟨utf8Encode_of_utf8Read, fun h => h ▸ utf8Read_utf8Encode t⟩

theorem utf8Decode_eq_ok_iff (x : ByteString) (t : Text) : utf8Decode x = .ok t ↔ x = utf8Encode t := by
  rw [← utf8Read_eq_some_iff, utf8Decode]
  cases utf8Read x <;> simp

/-- Settles O55: decoding answers exactly the encodings; what it does not answer is a DecodingError. -/
theorem utf8AcceptsExactlyItsEncodings : Obligations.Utf8AcceptsExactlyItsEncodings := by
  refine ⟨utf8Decode_eq_ok_iff, fun x h => ?_⟩
  cases hr : utf8Read x with
  | none => rw [utf8Decode, hr]
  | some t => exact absurd (utf8Read_eq_some_iff.1 hr) (h t)

end Sys2Proof.Machine
end

/-! ### Family 44_host_framing, messages and the library calls

Each stage of encryption is undone by the stage of decryption that mirrors it: the encodings, the splitting, ECB, the padding. -/
section

namespace Sys2Proof.Machine

theorem length_toBytes (b : Block) : b.toBytes.length = 16 := rfl

theorem blockOfBytes_toBytes_append (b : Block) (y : ByteString) : blockOfBytes (b.toBytes ++ y) = b := rfl

theorem concatBlocks_cons (b : Block) (bs : List Block) : concatBlocks (b :: bs) = b.toBytes ++ concatBlocks bs :=
  List.flatMap_cons

theorem length_concatBlocks (bs : List Block) : (concatBlocks bs).length = 16 * bs.length := by
  induction bs with
  | nil => rfl
  | cons b bs ih =>
    rw [concatBlocks_cons, List.length_append, ih, length_toBytes, List.length_cons]
    omega

/-- Splitting undoes concatenation (R274). -/
theorem splitBlocks_concatBlocks (bs : List Block) : splitBlocks (concatBlocks bs) = bs := by
  rw [splitBlocks, length_concatBlocks, Nat.mul_div_cancel_left _ (by decide)]
  induction bs with
  | nil => rfl
  | cons b bs ih =>
    rw [concatBlocks_cons, List.length_cons, takeBlocks, blockOfBytes_toBytes_append, List.drop_left' (length_toBytes b), ih]

/-- The first block of a string holds its first sixteen bytes. -/
theorem toBytes_blockOfBytes {y : ByteString} (h : 16 ≤ y.length) : (blockOfBytes y).toBytes = y.take 16 := by
  have hbytes : (blockOfBytes y).toBytes = (List.range 16).map fun i => y.getD i 0x00#8 := rfl
  rw [hbytes]
  apply List.ext_getElem
  · rw [List.length_map, List.length_range, List.length_take, Nat.min_eq_left h]
  · intro i hi _
    have hlt : i < y.length := by rw [List.length_map, List.length_range] at hi; omega
    rw [List.getElem_map, List.getElem_range, List.getElem_take, List.getD_eq_getElem _ _ hlt]

/-- Concatenation undoes the splitting of whole blocks (R274). -/
theorem concatBlocks_takeBlocks {n : Nat} {y : ByteString} (h : y.length = 16 * n) : concatBlocks (takeBlocks n y) = y := by
  induction n generalizing y with
  | zero => rw [List.length_eq_zero_iff.1 h]; rfl
  | succ n ih =>
    have hrest : (y.drop 16).length = 16 * n := by rw [List.length_drop]; omega
    rw [takeBlocks, concatBlocks_cons, ih hrest, toBytes_blockOfBytes (by omega), List.take_append_drop]

theorem concatBlocks_splitBlocks {y : ByteString} (h : y.length % 16 = 0) : concatBlocks (splitBlocks y) = y :=
  concatBlocks_takeBlocks (by omega)

/-- InvCipher under the same key undoes Cipher block by block (R181, R275). -/
theorem ecbRun_dec_enc (key : Block) (bs : List Block) : ecbRun .dec key (ecbRun .enc key bs) = bs := by
  rw [ecbRun, ecbRun, List.map_map]
  exact List.map_id'' (fun b => invCipher_cipher b _) bs

theorem length_takeBlocks (n : Nat) (y : ByteString) : (takeBlocks n y).length = n := by
  induction n generalizing y with
  | zero => rfl
  | succ n ih => rw [takeBlocks, List.length_cons, ih]

/-- What is encrypted is as long as what is padded: whole blocks, and at least one (R275). -/
theorem length_encrypted {y : ByteString} (h : y.length % 16 = 0) (key : Block) :
    (concatBlocks (ecbRun .enc key (splitBlocks y))).length = y.length := by
  rw [length_concatBlocks, ecbRun, List.length_map, splitBlocks, length_takeBlocks]
  omega

/-- Settles O56: each stage of decryption undoes a stage of encryption, the last one first. -/
theorem decryptMessageUndoesEncryptMessage : Obligations.DecryptMessageUndoesEncryptMessage := by
  intro text key
  obtain ⟨hwhole, hlonger, -, -, hunpad⟩ := paddingIsUndoneAndFillsBlocks (utf8Encode text)
  have hlen := length_encrypted hwhole key
  rw [encryptMessage, decryptMessage, (base64Decode_eq_ok_iff _ _).2 rfl]
  simp only
  rw [if_neg (by omega), splitBlocks_concatBlocks, ecbRun_dec_enc, concatBlocks_splitBlocks hwhole, hunpad]
  exact (utf8Decode_eq_ok_iff _ _).2 rfl

section

variable {text key : Text}

/-- An empty argument is refused before all else (R277). -/
theorem encrypt_decrypt_empty (h : text = [] ∨ key = []) :
    encrypt text key = .error .inputValidationError ∧ decrypt text key = .error .inputValidationError :=
  ⟨if_pos h, if_pos h⟩

/-- A key that is not sixteen bytes of UTF-8 is refused next (R277). -/
theorem encrypt_decrypt_keyLength (h : ¬ (text = [] ∨ key = [])) (hk : (utf8Encode key).length ≠ 16) :
    encrypt text key = .error .keyLengthError ∧ decrypt text key = .error .keyLengthError :=
  ⟨(if_neg h).trans (if_pos hk), (if_neg h).trans (if_pos hk)⟩

/-- Otherwise the calls are the message functions under the key's bytes (R277). -/
theorem encrypt_decrypt_checked (h : ¬ (text = [] ∨ key = [])) (hk : (utf8Encode key).length = 16) :
    encrypt text key = .ok (encryptMessage text (blockOfBytes (utf8Encode key))) ∧
      decrypt text key = decryptMessage text (blockOfBytes (utf8Encode key)) :=
  ⟨(if_neg h).trans (if_neg (not_not.2 hk)), (if_neg h).trans (if_neg (not_not.2 hk))⟩

end

/-- Settles O57: the three outcomes in the order of the checks; an absent argument is an empty one. -/
theorem libraryCallsCheckBeforeTheCipher : Obligations.LibraryCallsCheckBeforeTheCipher := by
  intro text key
  obtain ⟨hnoText, hnoText'⟩ := encrypt_decrypt_empty (text := []) (key := key) (.inl rfl)
  obtain ⟨hnoKey, hnoKey'⟩ := encrypt_decrypt_empty (text := text) (key := []) (.inr rfl)
  exact ⟨encrypt_decrypt_empty, fun ht hk => encrypt_decrypt_keyLength (not_or.2 ⟨ht, hk⟩),
    fun ht hk => encrypt_decrypt_checked (not_or.2 ⟨ht, hk⟩), hnoText, hnoKey, hnoText', hnoKey'⟩

end Sys2Proof.Machine
end

/-! ### Family 60_exceptions, the error record

A step keeps the error record, or it is a reset, or it is a transaction that clears or raises it (`step_errorRecord`); the
statements about what ends an error and what raises one are read off these kinds. -/
section

namespace Sys2Proof.Machine

/-- Of two errors the first is kept (R301). -/
theorem raiseError_raiseError (c d : ErrCode) (s : State) : raiseError d (raiseError c s) = raiseError c s :=
  raiseError_again d _ (raiseError_err c s)

/-- Settles O8: the first error is recorded, a later one is not; the codes are the rows of R302's table. -/
theorem firstErrorIsCaptured : Obligations.FirstErrorIsCaptured :=
  ⟨fun c s => ⟨raiseError_first c s, raiseError_again c s, fun d => raiseError_raiseError c d s⟩,
    rfl, rfl, rfl, rfl, rfl, rfl, rfl, rfl⟩

/-- Settles O28: each kind of step answers a next state. -/
theorem everyStepAnswersANextState : Obligations.EveryStepAnswersANextState := exists_step

/-! The three things a transaction can do to the error record. -/

/-- `t` has the error record of `s`. -/
def ErrorKept (s t : State) : Prop := t.err = s.err ∧ t.errcode = s.errcode

/-- `t` has no error recorded, and `x` is the STATUS write that clears one (R79, R307). -/
def ErrorCleared (x : Txn) (t : State) : Prop :=
  t.err = false ∧ t.errcode = 0x0#4 ∧ ∃ v, x = .write 0x0C#8 v 0xF#4 ∧ v.getLsbD 2 = true

/-- `s` has no error recorded, and `t` the one of a malformed `x`, or of a CMD write `x` that is refused (R300). -/
def ErrorRaised (x : Txn) (s t : State) : Prop :=
  s.err = false ∧
    ((¬ x.WellFormed ∧ t.errcode = 0x8#4) ∨
      ((∃ v, x = .write 0x08#8 v 0xF#4) ∧ 0x1#4 ≤ t.errcode ∧ t.errcode ≤ 0x7#4))

/-- Raising an error keeps the record there is, or records the code (R301). -/
theorem errorKept_or_first_raiseError (c : ErrCode) (s : State) :
    ErrorKept s (raiseError c s) ∨ (s.err = false ∧ (raiseError c s).errcode = c.code) := by
  cases he : s.err with
  | true => rw [raiseError_again c s he]; exact .inl ⟨rfl, rfl⟩
  | false => rw [raiseError_first c s he]; exact .inr ⟨rfl, rfl⟩

/-- The codes of the command decoder's errors are 1 to 7 (R302). -/
theorem errCode_code_bounds_of_ne_bus {c : ErrCode} (h : c ≠ .bus) : 0x1#4 ≤ c.code ∧ c.code ≤ 0x7#4 := by
  revert h
  cases c <;> decide

/-- The table of R213, entry by entry: no error of the sequencer is a bus error. -/
theorem stateError_ne_bus (i : Instr) (f : Fsm) : stateError i f ≠ some .bus := by
  cases i <;> cases f <;> decide

/-- No check of acceptance raises a bus error (R211). -/
theorem firstRefusal_ne_bus (i : Instr) (s : State) : firstRefusal i s ≠ some .bus := by
  unfold firstRefusal
  split
  · decide
  · split
    · next c hc => exact hc ▸ stateError_ne_bus i s.fsm
    · split_ifs <;> decide

/-- A command word raises an error of the command decoder, or leaves the error record alone (R210, R211). -/
theorem writeCmd_errorRecord {v : Word} {s t : State} (h : writeCmd v s = .next t) :
    ErrorKept s t ∨ ∃ c : ErrCode, c ≠ .bus ∧ t = raiseError c s := by
  cases hd : decode v with
  | error e =>
    simp only [writeCmd, hd, Host.Outcome.next.injEq] at h
    exact .inr ⟨.illegalCmd, by decide, h.symm⟩
  | ok i =>
    simp only [writeCmd, hd] at h
    rcases exec_cases h with ⟨c, hc, rfl⟩ | ⟨-, rfl⟩
    · exact .inr ⟨c, fun hb => firstRefusal_ne_bus i s (hb ▸ hc), rfl⟩
    · exact .inl ⟨ownAcceptance_err i _, ownAcceptance_errcode i _⟩

/-- A STATUS write clears the error record exactly with bit 2 set (R79). -/
theorem errorRecord_clearStatus (v : Word) (s : State) :
    ErrorKept s (clearStatus v s) ∨ ErrorCleared (.write (offsetOf .status) v 0xF#4) (clearStatus v s) := by
  cases hv : v.getLsbD 2 with
  | true => exact .inr ⟨by rw [clearStatus_err, hv]; rfl, by rw [clearStatus_errcode, hv]; rfl, v, rfl, hv⟩
  | false => exact .inl ⟨by rw [clearStatus_err, hv]; rfl, by rw [clearStatus_errcode, hv]; rfl⟩

/-- A register write touches the error record through STATUS and CMD only (R78). -/
theorem writeReg_errorRecord {r : Reg} {v : Word} {s t : State} (h : writeReg r v s = .next t) :
    ErrorKept s t ∨ ErrorCleared (.write (offsetOf r) v 0xF#4) t ∨ ErrorRaised (.write (offsetOf r) v 0xF#4) s t := by
  cases r with
  | cmd =>
    rcases writeCmd_errorRecord h with hkept | ⟨c, hc, rfl⟩
    · exact .inl hkept
    · refine (errorKept_or_first_raiseError c s).imp id fun ⟨he, hcode⟩ => .inr ⟨he, .inr ⟨⟨v, rfl⟩, ?_⟩⟩
      rw [hcode]
      exact errCode_code_bounds_of_ne_bus hc
  | status => cases h; exact (errorRecord_clearStatus v s).imp id .inl
  | id | ctrl | key | din | dout | blkcnt | blkidx | gfb => cases h; exact .inl ⟨rfl, rfl⟩

/-- A malformed transaction is refused with BUS (R74). -/
theorem access_malformed {x : Txn} (hx : ¬ x.WellFormed) (s : State) : ∃ a, access x s = .next (refuseAccess a s) :=
  ⟨_, (malformedTransactionIsRefusedWithBus x s).1 hx⟩

/-- A transaction keeps, clears or raises the error record (R79, R300). -/
theorem access_errorRecord {x : Txn} {s t : State} (h : access x s = .next t) :
    ErrorKept s t ∨ ErrorCleared x t ∨ ErrorRaised x s t := by
  by_cases hx : x.WellFormed
  · cases x with
    | read off =>
      obtain ⟨r, rfl⟩ := exists_offsetOf_of_legal hx
      rw [access_read_reg] at h
      cases h
      exact .inl ⟨rfl, rfl⟩
    | write off v strb =>
      obtain ⟨hoff, rfl⟩ := hx
      obtain ⟨r, rfl⟩ := exists_offsetOf_of_legal hoff
      rw [access_write_reg] at h
      exact writeReg_errorRecord (s := answer (.writeDone false) s) h
  · obtain ⟨a, ha⟩ := access_malformed hx s
    rw [ha] at h
    cases h
    exact (errorKept_or_first_raiseError .bus s).imp id fun ⟨he, hcode⟩ => .inr ⟨he, .inl ⟨hx, hcode⟩⟩

/-- No completion touches the error record (R307). -/
theorem errorKept_complete (s : State) : ErrorKept s (complete s) := by
  cases hp : s.pend with
  | none => rw [complete, hp]; exact ⟨rfl, rfl⟩
  | some p =>
    obtain ⟨herr, hcode, -⟩ := ownCompletion_frame p.op p s
    rw [complete_pending hp]
    exact ⟨herr, hcode⟩

/-- All that a step can do to the error record: keep it, reset it, or what its transaction does. -/
theorem step_errorRecord {s t : State} (h : step s = .next t) :
    ErrorKept s t ∨
      (∃ rest, s.script = .reset :: rest ∧ t = resetCore (takeEvent rest s)) ∨
      (completionDue s = false ∧
        ∃ x rest, s.script = .access x :: rest ∧ (ErrorCleared x t ∨ ErrorRaised x s t)) := by
  rcases step_cases h with ⟨-, -, rfl⟩ | hreset | ⟨-, -, rfl⟩ | ⟨rest, -, -, rfl⟩ | ⟨rest, -, -, rfl⟩ |
    ⟨x, rest, hd, hs, ha⟩
  · exact .inl (errorKept_complete s)
  · exact .inr (.inl hreset)
  · exact .inl ⟨rfl, rfl⟩
  · exact .inl ⟨rfl, rfl⟩
  · cases busy s <;> exact .inl ⟨rfl, rfl⟩
  · exact (access_errorRecord ha).imp id fun hx => .inr ⟨hd, x, rest, hs, hx⟩

/-- A STATUS write with bit 2 set clears the error record (R79, R307). -/
theorem step_clearsError {s t : State} {v : Word} {rest : List Event} (h : step s = .next t)
    (hd : completionDue s = false) (hs : s.script = .access (.write (offsetOf .status) v 0xF#4) :: rest)
    (hv : v.getLsbD 2 = true) : t.err = false ∧ t.errcode = 0x0#4 := by
  rw [step_access hs hd, access_write_reg] at h
  cases h
  simp [hv]

/-- Settles O9: with ERR = 1 a transaction raises nothing, so what is not kept is reset or cleared. -/
theorem onlyHostClearOrResetEndsAnError : Obligations.OnlyHostClearOrResetEndsAnError := by
  intro s t h
  constructor
  · intro he
    rcases step_errorRecord h with ⟨herr, hcode⟩ | ⟨rest, hs, rfl⟩ |
      ⟨hd, x, rest, hs, ⟨herr, hcode, v, rfl, hv⟩ | ⟨hnone, -⟩⟩
    · exact .inl ⟨herr.trans he, hcode⟩
    · exact .inr ⟨rfl, rfl, .inl ⟨rest, hs⟩⟩
    · exact .inr ⟨herr, hcode, .inr ⟨hd, v, rest, hs, hv⟩⟩
    · rw [he] at hnone; cases hnone
  · rintro (⟨rest, hs⟩ | ⟨hd, v, rest, hs, hv⟩)
    · rw [step_reset hs] at h
      cases h
      exact ⟨rfl, rfl⟩
    · exact step_clearsError h hd hs hv

/-- Settles O10: of the kinds of step only a transaction that raises an error takes ERR from 0 to 1. -/
theorem errorsComeFromTransactionsOnly : Obligations.ErrorsComeFromTransactionsOnly := by
  intro s t h hnone he
  rcases step_errorRecord h with ⟨herr, -⟩ | ⟨rest, -, rfl⟩ | ⟨hd, x, rest, hs, ⟨herr, -⟩ | ⟨-, hraised⟩⟩
  · rw [he, hnone] at herr; cases herr
  · cases he
  · rw [he] at herr; cases herr
  · exact ⟨hd, x, rest, hs, hraised⟩

end Sys2Proof.Machine
end

/-! ### Family 70_reset_and_hazards, the reset step and the latency

A reset step lands in the state of R49 whatever came before it; an accepted command waits for a latency drawn from the count
of acceptances and the command alone. -/
section

namespace Sys2Proof.Machine

/-- A reset gives the state after reset, with the events and the count of the state it comes to (R340). -/
theorem resetCore_takeEvent (rest : List Event) (s : State) :
    resetCore (takeEvent rest s) = { State.reset with script := rest, accepts := s.accepts } := rfl

/-- STATUS after a reset reads 0: it shows none of what a reset keeps (R49). -/
@[simp] theorem statusWord_resetCore (s : State) : statusWord (resetCore s) = 0x00000000#32 :=
  calc
    statusWord (resetCore s) = statusWord State.reset := rfl
    _ = 0x00000000#32 := by decide

/-- After a reset `irq` is low, since IRQ_EN is cleared (R43, R49). -/
@[simp] theorem irq_resetCore (s : State) : irq (resetCore s) = false := by
  obtain ⟨-, -, -, irq_of_disabled, -⟩ := irqFollowsDoneAndErr
  exact irq_of_disabled (resetCore s) rfl

/-- Settles O30: a reset that is next comes before a due completion (`step_reset`), and nothing of the old state is left. -/
theorem resetStepSetsEveryElement : Obligations.ResetStepSetsEveryElement := fun s rest h =>
  ⟨resetCore (takeEvent rest s), step_reset h, resetCore_takeEvent rest s, rfl, rfl, statusWord_resetCore _,
    irq_resetCore _, rfl⟩

/-- No command's own acceptance effects touch the latency drawn for it (R354). -/
@[simp] theorem ownAcceptance_wait (i : Instr) (s : State) : (ownAcceptance i s).wait = s.wait := by cases i <;> rfl

/-- A command that becomes pending was accepted, and waits for the latency of its turn and its opcode (R344, R354). -/
theorem exec_wait_of_pend {i : Instr} {s t : State} (h : exec i s = .next t) (hfree : s.pend = none)
    (hp : t.pend ≠ none) : t.wait = Config.latency s.accepts i := by
  rcases exec_cases h with ⟨c, -, rfl⟩ | ⟨-, rfl⟩
  · exact absurd ((raiseError_pend c s).trans hfree) hp
  · rw [ownAcceptance_wait, acceptCommon_wait]

/-- Settles O39: both states draw the latency of the same count and the same command. -/
theorem latencyDependsOnNoData : Obligations.LatencyDependsOnNoData := by
  intro i s t s' t' haccepts hs ht hexecS hexecT hs' ht'
  calc
    s'.wait = Config.latency s.accepts i := exec_wait_of_pend hexecS hs hs'
    _ = Config.latency t.accepts i := by rw [haccepts]
    _ = t'.wait := (exec_wait_of_pend hexecT ht ht').symm

end Sys2Proof.Machine
end
